-- ==== Sys2Proof/Word.lean ====
section
/-! DEFINITION. The units of the GO-DFU packet engine: bytes, byte sequences and the widths that
spec/00_scope.md R12 names (`u8`, `u16`, `u32`). -/

namespace Sys2Proof

/-- `u8` (00_scope.md R12). -/
abbrev Byte := BitVec 8

/-- A byte sequence: "a finite list of `u8`" (00_scope.md R13). -/
abbrev Bytes := List Byte

/-- `u16` (R12): the command word and the checksum register. -/
abbrev U16 := BitVec 16

/-- `u32` (R12): the `value` of a completion, the STATUS view, a DFU opcode. -/
abbrev U32 := BitVec 32

end Sys2Proof
end

