-- ==== Sys2Proof/Config.lean ====
section
/-! DEFINITION. What an implementation of the block fixes (the parameters of spec/00_scope.md R9), and the
free values: opaque constants for what the spec leaves open. -/

namespace Sys2Proof

/-- The four byte values of the framer (00_scope.md R9, 30_encoding.md R72). -/
structure SlipParams where
  /-- `SLIP_END`, the delimiter `D`. -/
  slipEnd : Byte
  /-- `SLIP_ESC`, the escape byte. -/
  slipEsc : Byte
  /-- `SLIP_ESC_END`, second byte of the escape pair for the delimiter. -/
  slipEscEnd : Byte
  /-- `SLIP_ESC_ESC`, second byte of the escape pair for the escape byte. -/
  slipEscEsc : Byte
  deriving DecidableEq, Repr, Inhabited

/-- The defaults of 00_scope.md R9: 0xC0, 0xDB, 0xDC, 0xDD.
PRESUMED: the spec marks them "from general knowledge, not in source" (93_implementation_defined.md I1). Unsafe. -/
def SlipParams.default : SlipParams :=
  { slipEnd := 0xC0#8, slipEsc := 0xDB#8, slipEscEnd := 0xDC#8, slipEscEsc := 0xDD#8 }

/-- `ESC_POLICY` (00_scope.md R9, 92_eei_decisions.md D10): OPEN, both behaviours are in 41_framer.md R123. -/
inductive EscPolicy where
  | reject
  | drop
  deriving DecidableEq, Repr, Inhabited

/-- `UART_CONFIG` (92_eei_decisions.md D25): OPEN, and "No rule depends on it". The six figures that D25 names,
each an uninterpreted number, because the source gives no values (91_not_in_source.md N10).
DESIGN CHOICE (the numbers' meaning is not fixed; note 15). Safe: nothing reads them. -/
structure UartConfig where
  baudRate : Nat
  dataBits : Nat
  parity : Nat
  stopBits : Nat
  bitOrder : Nat
  flowControl : Nat
  deriving DecidableEq, Repr, Inhabited

/-- `HOST_BINDING` (92_eei_decisions.md D3): OPEN, how `(W, DATA)` reach the block. D3 gives three examples.
DESIGN CHOICE: any further binding is `other` (note 15). Safe: nothing reads it. -/
inductive HostBinding where
  | registersOnBus
  | fifo
  | functionCall
  | other (code : Nat)
  deriving DecidableEq, Repr, Inhabited

/-- The parameters that "a model of the block takes as arguments" (00_scope.md R9). `MAX_DATA` is "OPEN, at least
8204", so it is held as its excess over 8204: a smaller one cannot be written. -/
structure Params where
  slip : SlipParams
  escPolicy : EscPolicy
  maxDataExtra : Nat
  uart : UartConfig
  hostBinding : HostBinding
  deriving DecidableEq, Repr

/-- How one transport write ends (43_transport.md R160): `ok`, or `io_error` after a prefix of `k` bytes. A `k`
beyond the length of the bytes written stands for all of them. -/
inductive WriteDraw where
  | ok
  | ioError (k : Nat)
  deriving DecidableEq, Repr, Inhabited

/-- How a frame read ends when the peer's bytes complete no frame (43_transport.md R163). -/
inductive ReadEnd where
  | timeout
  | ioError
  deriving DecidableEq, Repr, Inhabited

/-- What the environment does during one frame read (43_transport.md R163, R164): the bytes the peer sends while the
read is active, and how the read ends if the receiver completes no frame from them.
DEDUCED: R163's draw of `frame(f)`, `timeout` or `io_error` is this pair. Safe: every outcome R163 admits is
some pair's, and no other outcome is. -/
structure ReadDraw where
  bytes : Bytes
  ending : ReadEnd
  deriving DecidableEq, Repr, Inhabited

namespace Config

/-- The implementation's `ESC_POLICY` (OPEN, R9). -/
opaque escPolicy : EscPolicy

/-- The implementation's `MAX_DATA` less 8204 (OPEN, R9). -/
opaque maxDataExtra : Nat

/-- The implementation's `UART_CONFIG` (OPEN, R9). -/
opaque uart : UartConfig

/-- The implementation's `HOST_BINDING` (OPEN, 20_memory.md R48). -/
opaque hostBinding : HostBinding

/-- The outcome of the `n`th write that no fixed draw decides (R15, R160): a free value. -/
opaque writeDraw : Nat → WriteDraw

/-- The outcome of the `n`th read that no fixed draw decides (R15, R163): a free value. -/
opaque readDraw : Nat → ReadDraw

/-- The `value` returned for a length that a `u32` cannot hold: a free value (30_encoding.md R68, 00_scope.md R12).
DESIGN CHOICE: the spec states no result there. Safe. -/
opaque lengthBeyondU32 : Nat → U32

end Config

end Sys2Proof
end

