-- ==== Sys2Proof/Machine/Operands.lean ====
section
/-! DEFINITION. Byte order, operand assembly and the fixed parameters (spec/00_scope.md R9, R10, R12, R13;
spec/30_encoding.md R70). -/

namespace Sys2Proof.Machine

/-- `CK_INIT` (00_scope.md R9). -/
def ckInit : U16 := 0xFFFF#16

/-- `PKT_TYPE` (00_scope.md R9). -/
def pktType : Byte := 14#8

/-- `MAX_PAYLOAD` (00_scope.md R9). -/
def maxPayload : Nat := 4095

/-- `ACK_TIMEOUT_MS` (00_scope.md R9). -/
def ackTimeoutMs : U32 := 1000#32

/-- The least `MAX_DATA` that 00_scope.md R9 allows (92_eei_decisions.md D14). -/
def minMaxData : Nat := 8204

/-- `MAX_DATA` of a parameter set. -/
def maxData (p : Params) : Nat := p.maxDataExtra + minMaxData

/-- `len > MAX_DATA` (30_encoding.md R69 check 4) for `MAX_DATA = limit`. A `limit` is never below 8204
(`overLimit_maxData`), so the first test changes nothing; it settles a short `DATA` before an OPEN `MAX_DATA` is
read (note 18). -/
def overLimit (limit len : Nat) : Bool := decide (minMaxData < len) && decide (limit < len)

/-- The constraints of 00_scope.md R10 on the four SLIP bytes. -/
def slipLegal (p : SlipParams) : Bool :=
  p.slipEnd != p.slipEsc && p.slipEscEnd != p.slipEscEsc &&
    p.slipEscEnd != p.slipEnd && p.slipEscEsc != p.slipEnd

/-- `le16(v)` (00_scope.md R13). -/
def le16 (v : U16) : Bytes := [v.extractLsb' 0 8, v.extractLsb' 8 8]

/-- `le32(v)` (00_scope.md R13). -/
def le32 (v : U32) : Bytes :=
  [v.extractLsb' 0 8, v.extractLsb' 8 8, v.extractLsb' 16 8, v.extractLsb' 24 8]

/-- `DATA[0] + 256 × DATA[1]` (30_encoding.md R70). -/
def ofLe16 (d0 d1 : Byte) : U16 := d1 ++ d0

/-- `DATA[0] + 2^8 × DATA[1] + 2^16 × DATA[2] + 2^24 × DATA[3]` (30_encoding.md R70). -/
def ofLe32 (d0 d1 d2 d3 : Byte) : U32 := d3 ++ d2 ++ d1 ++ d0

/-- `zext_32` of a length (00_scope.md R12): the length where a `u32` holds it, else a free value (note 8). -/
def lengthValue (n : Nat) : U32 :=
  if n < 4294967296 then BitVec.ofNat 32 n else Config.lengthBeyondU32 n

end Sys2Proof.Machine
end

