-- ==== Sys2Proof/Syntax.lean ====
section
/-! DEFINITION. The instructions: one constructor of `Instr` per row of spec/opcode_table.json, and `HostItem`, the
form in which the host hands the block its commands (spec/30_encoding.md R66). -/

namespace Sys2Proof

/-- What the block is asked to do. The thirteen commands of 30_encoding.md R67 with their operands assembled
(R70), and the four DFU payload opcodes of R74, each with the payload bytes that follow its four-byte tag. -/
inductive Instr where
  /-- CRC_INIT (40_checksum.md R102). -/
  | crcInit
  /-- CRC_UPDATE (R103). -/
  | crcUpdate (data : Bytes)
  /-- CHECKSUM (R104). -/
  | checksum (data : Bytes)
  /-- SLIP_ENCODE (41_framer.md R121). -/
  | slipEncode (data : Bytes)
  /-- SLIP_DECODE (R123). -/
  | slipDecode (data : Bytes)
  /-- PACK_HEADER (42_packet.md R142): the sequence number and the payload length `n`, 0 to 65535. -/
  | packHeader (sq : BitVec 3) (n : U16)
  /-- BUILD_PACKET (R144). -/
  | buildPacket (sq : BitVec 3) (payload : Bytes)
  /-- PARSE_ACK (R146). -/
  | parseAck (body : Bytes)
  /-- TX_WRITE (43_transport.md R161). -/
  | txWrite (data : Bytes)
  /-- RX_READ_FRAME (R165). -/
  | rxReadFrame (timeoutMs : U32)
  /-- SEND_PACKET (R170). -/
  | sendPacket (payload : Bytes)
  /-- STATUS_READ (R180). -/
  | statusRead
  /-- SESSION_RESET (R181). -/
  | sessionReset
  /-- DFU_INIT: the payload `01 00 00 00 ++ rest` (30_encoding.md R74, 48_host_protocol.md R202). -/
  | dfuInit (rest : Bytes)
  /-- DFU_START: the payload `03 00 00 00 ++ rest` (R74, R200). -/
  | dfuStart (rest : Bytes)
  /-- DFU_DATA: the payload `04 00 00 00 ++ rest` (R74, R203). -/
  | dfuData (rest : Bytes)
  /-- DFU_STOP: the payload `05 00 00 00 ++ rest` (R74, R204). -/
  | dfuStop (rest : Bytes)
  deriving DecidableEq, Repr

/-- One thing the host does at the block's interface (note 1). -/
inductive HostItem where
  /-- Issue the command `(W, DATA)` (30_encoding.md R66). -/
  | command (w : U16) (data : Bytes)
  /-- Hand a DFU payload to the packet-send primitive, written by its DFU opcode (R74, 48_host_protocol.md; note 6). -/
  | payload (bytes : Bytes)
  /-- A host timer runs for `ms` milliseconds and no command is issued (48_host_protocol.md R205; note 10). -/
  | wait (ms : Nat)
  /-- Apply hardware reset (70_reset_and_hazards.md R285). -/
  | hardwareReset
  deriving DecidableEq, Repr

/-- The thirteen assigned commands by name (30_encoding.md R67). -/
inductive Op where
  | crcInit | crcUpdate | checksum
  | slipEncode | slipDecode
  | packHeader | buildPacket | parseAck
  | txWrite | rxReadFrame | sendPacket
  | statusRead | sessionReset
  deriving DecidableEq, Repr

/-- The four DFU payload opcodes by name (30_encoding.md R74). -/
inductive DfuOp where
  | init | start | data | stop
  deriving DecidableEq, Repr

/-- Why a host item is not an instruction. The first five are the checks of 30_encoding.md R69, in its order. -/
inductive Rejection where
  /-- R69 check 1: `W[15:11] ≠ 0`. -/
  | reservedBits
  /-- R69 check 2: `OP` is not assigned in R67. -/
  | unassignedOp
  /-- R69 check 3: `SQ ≠ 0` and the command does not use `SQ`. -/
  | sqNotUsed
  /-- R69 check 4: `len(DATA) > MAX_DATA`. -/
  | dataTooLong
  /-- R69 check 5: `DATA` does not have the shape R67 requires. -/
  | dataShape
  /-- A payload whose first four bytes are no DFU opcode of R74, or that has fewer than four bytes
  (93_implementation_defined.md I14; note 7). -/
  | undefinedDfuOpcode
  /-- A wait or a hardware reset: no command at all. -/
  | notACommand
  deriving DecidableEq, Repr

end Sys2Proof
end

