-- ==== Sys2Proof/Machine/State.lean ====
section
/-! DEFINITION. The state of the block (spec/10_state.md R22) as plain data, with the host and the environment the step
reads, the reasons a step can stop, and the machine right after power-on reset (spec/70_reset_and_hazards.md R280). -/

namespace Sys2Proof.Machine

/-- The result codes of 60_exceptions.md R240. Codes 9 to 15 are "never produced", so they have no constructor. -/
inductive ResultCode where
  | ok
  | writeFailure
  | readTimeout
  | readIoError
  | malformedAck
  | decodeError
  | payloadTooLong
  | illegalCommand
  | sessionFailed
  deriving DecidableEq, Repr

/-- The mode of the frame receiver (10_state.md R27). -/
inductive RxMode where
  | hunting
  | inFrame
  deriving DecidableEq, Repr

/-- `RX`, the receiver's assembly state: the mode, and the bytes received since the opening delimiter (R27). -/
structure Rx where
  mode : RxMode
  buf : Bytes
  deriving DecidableEq, Repr

/-- (`hunting`, `[]`), the value of `RX` between commands (R27). -/
def Rx.idle : Rx := { mode := .hunting, buf := [] }

/-- The result triple of a completed command (30_encoding.md R68). -/
structure Reply where
  code : ResultCode
  value : U32
  out : Bytes
  deriving DecidableEq, Repr

/-- The environment's draws (00_scope.md R15): those already fixed for the coming writes and reads, oldest first, and
the number of free draws taken so far (note 3). -/
structure Link where
  writes : List WriteDraw
  reads : List ReadDraw
  drawn : Nat
  deriving DecidableEq, Repr

/-- The state. The first six fields are the tuple of 10_state.md R22; `reply` is the completion of R68; `cfg` is the
parameter set of 00_scope.md R9, which no step changes; `pending` and `link` are the model's own: the host's commands
not issued yet and the environment's draws. -/
structure State where
  /-- `CRC`, the running checksum register (R23). -/
  crc : U16
  /-- `SEQ`, the sequence counter (R24). -/
  seq : BitVec 3
  /-- `WFAIL`, the sticky write-failure bit (R25). -/
  wfail : Bool
  /-- `RESULT`, the result code of the last command but a legal STATUS_READ (R26). -/
  result : ResultCode
  /-- `RX`, the receiver's assembly state (R27). -/
  rx : Rx
  /-- `TXLOG`, every byte handed to the serial link since power-on (R28). -/
  txlog : Bytes
  /-- What the last completed command returned to the host (30_encoding.md R68; note 5). -/
  reply : Option Reply
  /-- The parameters (00_scope.md R9; note 2). -/
  cfg : Params
  /-- What the host does next, oldest first (10_state.md R21; note 1). -/
  pending : List HostItem
  /-- The environment (00_scope.md R15; note 3). -/
  link : Link
  deriving DecidableEq, Repr

/-- Why the machine stops with a fault: never. "The block has no trap mechanism. Every error is a synchronous result
code" (60_exceptions.md, and R246), so there is no constructor. Safe. -/
inductive Fault where
  deriving DecidableEq, Repr

/-- Why the model gives no meaning. -/
inductive Refusal where
  /-- Raised by an arm of `exec` whose instruction has no meaning yet. None is left. Safe. -/
  | notModelled (mnemonic : String)
  /-- Raised by the fetch when the SLIP bytes break 00_scope.md R10: "A model must refuse a configuration that breaks
  any of these." Safe. -/
  | illegalConfiguration
  /-- Raised by the fetch for a payload, written by its DFU opcode, whose opcode R74 does not define:
  93_implementation_defined.md I14, "A host model should `refuse` them" (note 7). SEND_PACKET itself carries any
  bytes. Safe. -/
  | undefinedDfuOpcode
  deriving DecidableEq, Repr

/-- The parameters of the machine after power-on: the defaults of 00_scope.md R9, and opaque constants where R9 says
`OPEN` (note 2). PRESUMED (the SLIP bytes). Unsafe for a claim about wire bytes that rests on them. -/
def paramsAtReset : Params :=
  { slip := SlipParams.default
    escPolicy := Config.escPolicy
    maxDataExtra := Config.maxDataExtra
    uart := Config.uart
    hostBinding := Config.hostBinding }

/-- The machine right after power-on reset (70_reset_and_hazards.md R280): every register at the value R280 gives it.
No command has been issued and none has completed, and no draw is fixed: DESIGN CHOICE (notes 1, 3, 5). -/
def State.reset : State :=
  { crc := 0xFFFF#16
    seq := 0#3
    wfail := false
    result := .ok
    rx := Rx.idle
    txlog := []
    reply := none
    cfg := paramsAtReset
    pending := []
    link := { writes := [], reads := [], drawn := 0 } }

end Sys2Proof.Machine
end

