-- ==== Sys2Proof/Machine/Flags.lean ====
section
/-! DEFINITION. The status bits: the result code's number and the STATUS view (spec/10_state.md R26, R29;
spec/60_exceptions.md R240). The block has no condition codes (R30). -/

namespace Sys2Proof.Machine

/-- The 4-bit number of a result code (60_exceptions.md R240). -/
def codeBits : ResultCode → BitVec 4
  | .ok => 0#4
  | .writeFailure => 1#4
  | .readTimeout => 2#4
  | .readIoError => 3#4
  | .malformedAck => 4#4
  | .decodeError => 5#4
  | .payloadTooLong => 6#4
  | .illegalCommand => 7#4
  | .sessionFailed => 8#4

/-- The STATUS view (10_state.md R29), put together as 43_transport.md R180 writes it:
`SEQ | (WFAIL << 3) | (STATUS.RESULT << 4) | (CRC << 16)`. -/
def statusWord (s : State) : U32 :=
  s.seq.setWidth 32 ||| ((BitVec.ofBool s.wfail).setWidth 32 <<< 3) |||
    ((codeBits s.result).setWidth 32 <<< 4) ||| (s.crc.setWidth 32 <<< 16)

end Sys2Proof.Machine
end

