-- ==== Sys2Proof/Machine/Ops.lean ====
section
/-! DEFINITION. The shared operations: completing a command and raising an error code (spec/00_scope.md R14), the
environment's draws (R15), the transport primitives and the receiver (spec/43_transport.md R160, R163, R164), and reset
(spec/70_reset_and_hazards.md R280). -/

namespace Sys2Proof.Machine

/-! ## Completion and errors -/

/-- `complete(code, value, out)`: ends the command, writes `STATUS.RESULT` and returns the triple (00_scope.md R14,
30_encoding.md R68). -/
def complete (code : ResultCode) (value : U32) (out : Bytes) (s : State) : State :=
  { s with result := code, reply := some { code := code, value := value, out := out } }

/-- `raise E(info)` is `complete(code(E), 0, [])` (00_scope.md R14). This is all that taking an error does: it "saves no
state other than `STATUS.RESULT` and, for a write failure, `WFAIL`" (60_exceptions.md R246), and there is no return
from it (R248). -/
def raiseError (code : ResultCode) (s : State) : State := complete code 0#32 [] s

/-- A command that fails a check of 30_encoding.md R69: "completes the command with `ILLEGAL_COMMAND`, and the command
has no other effect". -/
def illegalCommand (s : State) : State := raiseError .illegalCommand s

/-! ## Draws -/

/-- The outcome of the next write: the one the environment has fixed, else a free value (00_scope.md R15). -/
def drawWrite (s : State) : WriteDraw × State :=
  match s.link.writes with
  | d :: ds => (d, { s with link := { s.link with writes := ds } })
  | [] => (Config.writeDraw s.link.drawn, { s with link := { s.link with drawn := s.link.drawn + 1 } })

/-- What the environment does during the next read: what it has fixed, else a free value (00_scope.md R15). -/
def drawRead (s : State) : ReadDraw × State :=
  match s.link.reads with
  | d :: ds => (d, { s with link := { s.link with reads := ds } })
  | [] => (Config.readDraw s.link.drawn, { s with link := { s.link with drawn := s.link.drawn + 1 } })

/-! ## Transport primitives -/

/-- The bytes of `bs` that reach the wire (43_transport.md R160): all of them, or the drawn prefix. -/
def wireBytes (d : WriteDraw) (bs : Bytes) : Bytes :=
  match d with
  | .ok => bs
  | .ioError k => bs.take k

/-- *UartWrite(s)* (43_transport.md R160): the draw, with the bytes it lets through appended to `TXLOG`. -/
def uartWrite (bs : Bytes) (s : State) : WriteDraw × State :=
  match drawWrite s with
  | (d, s') => (d, { s' with txlog := s'.txlog ++ wireBytes d bs })

/-- What the receiver does with one byte (43_transport.md R164): its next state, and the frame if the byte completes
one. -/
def rxByte (slipEnd : Byte) (rx : Rx) (b : Byte) : Rx × Option Bytes :=
  match rx.mode with
  | .hunting => if b = slipEnd then ({ mode := .inFrame, buf := [] }, none) else (rx, none)
  | .inFrame =>
    if b ≠ slipEnd then ({ mode := .inFrame, buf := rx.buf ++ [b] }, none)
    else if rx.buf = [] then ({ mode := .inFrame, buf := [] }, none)
    else (rx, some ([slipEnd] ++ rx.buf ++ [slipEnd]))

/-- The receiver over the bytes the peer sends, in arrival order: the first frame completed. "Bytes after the closing
delimiter, in the same read, are discarded" (43_transport.md R164). -/
def receive (slipEnd : Byte) (rx : Rx) (bytes : Bytes) : Option Bytes :=
  match bytes with
  | [] => none
  | b :: bs =>
    match rxByte slipEnd rx b with
    | (_, some f) => some f
    | (rx', none) => receive slipEnd rx' bs

/-- The result of a frame read: `Result<Bytes, TimeoutError|IoError>` (43_transport.md R163). -/
inductive ReadResult where
  | frame (f : Bytes)
  | timeout
  | ioError
  deriving DecidableEq, Repr

/-- How a read draw ends: with the frame the receiver completes from the peer's bytes, else as drawn (R163, R164). -/
def readResult (slipEnd : Byte) (rx : Rx) (d : ReadDraw) : ReadResult :=
  match receive slipEnd rx d.bytes, d.ending with
  | some f, _ => .frame f
  | none, .timeout => .timeout
  | none, .ioError => .ioError

/-- *UartReadFrame(t)* (43_transport.md R163): a fresh handle, the draw, and the handle released. "In the model the
value `t` restricts no outcome" (92_eei_decisions.md D17), so `t` is not read. -/
def uartReadFrame (_timeoutMs : U32) (s : State) : ReadResult × State :=
  match drawRead { s with rx := Rx.idle } with
  | (d, s') => (readResult s'.cfg.slip.slipEnd s'.rx d, { s' with rx := Rx.idle })

/-! ## Reset -/

/-- What SESSION_RESET and hardware reset both set (70_reset_and_hazards.md R280, 43_transport.md R181). `TXLOG` is
kept: it is "cleared only at power-on" (92_eei_decisions.md D33; note 13). -/
def resetRegisters (s : State) : State :=
  { s with crc := ckInit, seq := 0#3, wfail := false, rx := Rx.idle }

/-- Hardware reset between commands (70_reset_and_hazards.md R280, R285). It is no command, so it returns no triple
(note 5). -/
def hardwareReset (s : State) : State := { resetRegisters s with result := .ok, reply := none }

end Sys2Proof.Machine
end

