-- ==== Sys2Proof/Machine/Checksum.lean ====
section
/-! DEFINITION. The Checksum-16 generator: the byte step and CRC_INIT, CRC_UPDATE, CHECKSUM (spec/40_checksum.md). The
polynomial text that loses in spec/90_conflicts.md C1 is not modelled. -/

namespace Sys2Proof.Machine

/-- `crc_step(r, x)` (40_checksum.md R100): five operations, each on the value the one before wrote. -/
def crcStep (r : U16) (x : Byte) : U16 :=
  let r := (r >>> 8) ||| (r <<< 8)
  let r := r ^^^ x.setWidth 16
  let r := r ^^^ ((r &&& 0xFF#16) >>> 4)
  let r := r ^^^ (r <<< 12)
  r ^^^ ((r &&& 0xFF#16) <<< 5)

/-- The byte step folded over a sequence from index 0 (R103, R104; 20_memory.md R44). -/
def crcFold (r : U16) (bytes : Bytes) : U16 := bytes.foldl crcStep r

/-- `checksum(s)` (40_checksum.md R104). -/
def checksum (bytes : Bytes) : U16 := crcFold ckInit bytes

/-- A command that leaves `r` in `CRC` and returns it (R102, R103, R104). -/
def completeCrc (r : U16) (s : State) : State := complete .ok (r.setWidth 32) [] { s with crc := r }

/-- CRC_INIT (40_checksum.md R102). -/
def execCrcInit (s : State) : Host.Outcome State Fault Refusal := .next (completeCrc ckInit s)

/-- CRC_UPDATE (40_checksum.md R103). -/
def execCrcUpdate (data : Bytes) (s : State) : Host.Outcome State Fault Refusal :=
  .next (completeCrc (crcFold s.crc data) s)

/-- CHECKSUM (40_checksum.md R104). -/
def execChecksum (data : Bytes) (s : State) : Host.Outcome State Fault Refusal :=
  .next (completeCrc (checksum data) s)

end Sys2Proof.Machine
end

