-- ==== Sys2Proof/WellFormed.lean ====
section
/-! DEFINITION. Well-formed instructions. The types of `Instr` already hold every field to its width; what is left of
spec/30_encoding.md R66 is the length of `DATA`, "0 to `MAX_DATA`". -/

namespace Sys2Proof

/-- The `DATA` length limit of R66 and R69 check 4, for `MAX_DATA = limit`. A DFU payload travels as the `DATA` of a
SEND_PACKET, so its four tag bytes count. PACK_HEADER and RX_READ_FRAME have two and four bytes, always within a `MAX_DATA` of at
least 8204. -/
def wellFormed (limit : Nat) : Instr → Bool
  | .crcInit => true
  | .crcUpdate data => decide (data.length ≤ limit)
  | .checksum data => decide (data.length ≤ limit)
  | .slipEncode data => decide (data.length ≤ limit)
  | .slipDecode data => decide (data.length ≤ limit)
  | .packHeader _ _ => true
  | .buildPacket _ payload => decide (payload.length ≤ limit)
  | .parseAck body => decide (body.length ≤ limit)
  | .txWrite data => decide (data.length ≤ limit)
  | .rxReadFrame _ => true
  | .sendPacket payload => decide (payload.length ≤ limit)
  | .statusRead => true
  | .sessionReset => true
  | .dfuInit rest => decide (4 + rest.length ≤ limit)
  | .dfuStart rest => decide (4 + rest.length ≤ limit)
  | .dfuData rest => decide (4 + rest.length ≤ limit)
  | .dfuStop rest => decide (4 + rest.length ≤ limit)

end Sys2Proof
end

