-- ==== Sys2Proof/Decode.lean ====
section
/-! DEFINITION. The decoder (spec/30_encoding.md R66 to R71, R74), total and rejecting by name, and after it the
encoder, written from the same tables. -/

namespace Sys2Proof

open Sys2Proof.Machine

/-! ## Fields of the command word (R66) -/

/-- `OP`, `W[7:0]`. -/
def opField (w : U16) : Byte := w.extractLsb' 0 8

/-- `SQ`, `W[10:8]`. -/
def sqField (w : U16) : BitVec 3 := w.extractLsb' 8 3

/-- The reserved field `W[15:11]`. -/
def reservedField (w : U16) : BitVec 5 := w.extractLsb' 11 5

/-! ## The tables of R67 and R74 -/

/-- The values of `OP` (R67). -/
def opCode : Op → Byte
  | .crcInit => 0x01#8
  | .crcUpdate => 0x02#8
  | .checksum => 0x03#8
  | .slipEncode => 0x10#8
  | .slipDecode => 0x11#8
  | .packHeader => 0x20#8
  | .buildPacket => 0x21#8
  | .parseAck => 0x22#8
  | .txWrite => 0x30#8
  | .rxReadFrame => 0x31#8
  | .sendPacket => 0x40#8
  | .statusRead => 0x50#8
  | .sessionReset => 0x51#8

/-- The column "`SQ` used" of R67. -/
def usesSq : Op → Bool
  | .packHeader => true
  | .buildPacket => true
  | .crcInit | .crcUpdate | .checksum | .slipEncode | .slipDecode | .parseAck
  | .txWrite | .rxReadFrame | .sendPacket | .statusRead | .sessionReset => false

/-- Every assigned command. -/
def allOps : List Op :=
  [.crcInit, .crcUpdate, .checksum, .slipEncode, .slipDecode, .packHeader, .buildPacket, .parseAck,
   .txWrite, .rxReadFrame, .sendPacket, .statusRead, .sessionReset]

/-- The command an `OP` value is assigned to: "Every other value of `OP` is unassigned" (R67). -/
def opOfCode (c : Byte) : Option Op := allOps.find? fun o => opCode o == c

/-- The values of the DFU opcodes (R74): "deliberately non-sequential". -/
def dfuCode : DfuOp → U32
  | .init => 1#32
  | .start => 3#32
  | .data => 4#32
  | .stop => 5#32

/-- Every DFU opcode. -/
def allDfuOps : List DfuOp := [.init, .start, .data, .stop]

/-- The DFU opcode a tag stands for: "Values 0, 2 and 6 to 2^32−1 are not defined" (R74). -/
def dfuOfCode (c : U32) : Option DfuOp := allDfuOps.find? fun o => dfuCode o == c

/-! ## Decoding -/

/-- The operands of a command from `SQ` and `DATA` (R70); `none` where `DATA` has not the shape of R67
(R69 check 5). -/
def assembleOperands (o : Op) (sq : BitVec 3) (data : Bytes) : Option Instr :=
  match o with
  | .crcInit => if data = [] then some .crcInit else none
  | .crcUpdate => some (.crcUpdate data)
  | .checksum => some (.checksum data)
  | .slipEncode => some (.slipEncode data)
  | .slipDecode => some (.slipDecode data)
  | .packHeader =>
    match data with
    | [d0, d1] => some (.packHeader sq (ofLe16 d0 d1))
    | _ => none
  | .buildPacket => some (.buildPacket sq data)
  | .parseAck => some (.parseAck data)
  | .txWrite => some (.txWrite data)
  | .rxReadFrame =>
    match data with
    | [d0, d1, d2, d3] => some (.rxReadFrame (ofLe32 d0 d1 d2 d3))
    | _ => none
  | .sendPacket => some (.sendPacket data)
  | .statusRead => if data = [] then some .statusRead else none
  | .sessionReset => if data = [] then some .sessionReset else none

/-- The five checks of 30_encoding.md R69, in its order, for `MAX_DATA = limit`. -/
def decodeCommand (limit : Nat) (w : U16) (data : Bytes) : Except Rejection Instr :=
  if reservedField w ≠ 0#5 then .error .reservedBits
  else
    match opOfCode (opField w) with
    | none => .error .unassignedOp
    | some o =>
      if sqField w ≠ 0#3 ∧ usesSq o = false then .error .sqNotUsed
      else if overLimit limit data.length = true then .error .dataTooLong
      else
        match assembleOperands o (sqField w) data with
        | none => .error .dataShape
        | some i => .ok i

/-- The instruction of a DFU opcode and the payload bytes after it. -/
def dfuInstr (o : DfuOp) (rest : Bytes) : Instr :=
  match o with
  | .init => .dfuInit rest
  | .start => .dfuStart rest
  | .data => .dfuData rest
  | .stop => .dfuStop rest

/-- A payload read by its DFU opcode: its first four bytes, little-endian (R74). A payload with a defined opcode is
the `DATA` of a SEND_PACKET, so R69 check 4 stands before it too (note 6). -/
def decodePayload (limit : Nat) (bytes : Bytes) : Except Rejection Instr :=
  match bytes with
  | d0 :: d1 :: d2 :: d3 :: rest =>
    match dfuOfCode (ofLe32 d0 d1 d2 d3) with
    | none => .error .undefinedDfuOpcode
    | some o => if overLimit limit (4 + rest.length) = true then .error .dataTooLong else .ok (dfuInstr o rest)
  | _ => .error .undefinedDfuOpcode

/-- The decoder: what instruction a host item is, or by name why it is none. -/
def decode (limit : Nat) (h : HostItem) : Except Rejection Instr :=
  match h with
  | .command w data => decodeCommand limit w data
  | .payload bytes => decodePayload limit bytes
  | .wait _ => .error .notACommand
  | .hardwareReset => .error .notACommand

/-! ## Encoding -/

/-- The command word of R66. -/
def commandWord (o : Op) (sq : BitVec 3) : U16 := (0#5 ++ sq ++ opCode o : BitVec (5 + 3 + 8))

/-- The payload of a DFU opcode: its tag, little-endian, then the bytes after it (R74). -/
def dfuPayload (o : DfuOp) (rest : Bytes) : Bytes := le32 (dfuCode o) ++ rest

/-- The host item of an instruction. -/
def encode : Instr → HostItem
  | .crcInit => .command (commandWord .crcInit 0#3) []
  | .crcUpdate data => .command (commandWord .crcUpdate 0#3) data
  | .checksum data => .command (commandWord .checksum 0#3) data
  | .slipEncode data => .command (commandWord .slipEncode 0#3) data
  | .slipDecode data => .command (commandWord .slipDecode 0#3) data
  | .packHeader sq n => .command (commandWord .packHeader sq) (le16 n)
  | .buildPacket sq payload => .command (commandWord .buildPacket sq) payload
  | .parseAck body => .command (commandWord .parseAck 0#3) body
  | .txWrite data => .command (commandWord .txWrite 0#3) data
  | .rxReadFrame t => .command (commandWord .rxReadFrame 0#3) (le32 t)
  | .sendPacket payload => .command (commandWord .sendPacket 0#3) payload
  | .statusRead => .command (commandWord .statusRead 0#3) []
  | .sessionReset => .command (commandWord .sessionReset 0#3) []
  | .dfuInit rest => .payload (dfuPayload .init rest)
  | .dfuStart rest => .payload (dfuPayload .start rest)
  | .dfuData rest => .payload (dfuPayload .data rest)
  | .dfuStop rest => .payload (dfuPayload .stop rest)

/-! ## The opcode table's words -/

/-- The `DATA` that goes with a table word when every bit the instruction has above the word is 0: zeros where R67
requires a length (two bytes for PACK_HEADER, four for RX_READ_FRAME), and nothing elsewhere, since `DATA`'s length
"is given by the host interface with the command, not by `W`" (R71).
DESIGN CHOICE (the table gives `DATA` no bits; note 11). Safe: no rule of the block reads this. -/
def zeroOperand (w : U16) : Bytes :=
  match opOfCode (opField w) with
  | some .packHeader => [0#8, 0#8]
  | some .rxReadFrame => [0#8, 0#8, 0#8, 0#8]
  | _ => []

/-- The host item for the bits `w` of a row of spec/opcode_table.json: a 16-bit row is a command word, a 32-bit row
the little-endian tag of a DFU payload. -/
def hostItemOfTableWord (nbits w : Nat) : HostItem :=
  if nbits = 32 then .payload (le32 (BitVec.ofNat 32 w))
  else .command (BitVec.ofNat 16 w) (zeroOperand (BitVec.ofNat 16 w))

/-- The instruction the decoder reads from a row's bits, with the least `MAX_DATA` (every larger one reads the same,
`Laws.decode_least_limit`). -/
def decodeTableWord (nbits w : Nat) : Option Instr :=
  if nbits = 16 ∨ nbits = 32 then (decode minMaxData (hostItemOfTableWord nbits w)).toOption
  else none

end Sys2Proof
end

