-- ==== Sys2Proof/Machine/Framer.lean ====
section
/-! DEFINITION. The byte-stuffing framer: SLIP_ENCODE and SLIP_DECODE (spec/41_framer.md; spec/90_conflicts.md C2). -/

namespace Sys2Proof.Machine

/-- `stuff(x)` (41_framer.md R120, 30_encoding.md R72). -/
def stuff (p : SlipParams) (x : Byte) : Bytes :=
  if x = p.slipEnd then [p.slipEsc, p.slipEscEnd]
  else if x = p.slipEsc then [p.slipEsc, p.slipEscEsc]
  else [x]

/-- `slip_encode(s)` (41_framer.md R121). -/
def slipEncode (p : SlipParams) (bytes : Bytes) : Bytes :=
  [p.slipEnd] ++ bytes.flatMap (stuff p) ++ [p.slipEnd]

/-- The decoder removes every delimiter first, wherever it stands (41_framer.md R122). -/
def stripEnds (p : SlipParams) (bytes : Bytes) : Bytes := bytes.filter fun b => b != p.slipEnd

/-- Unescaping what remains (41_framer.md R123): `none` where R123 raises `DECODE_ERROR`. -/
def unstuff (p : SlipParams) (policy : EscPolicy) : Bytes → Option Bytes
  | [] => some []
  | [b] =>
    if b ≠ p.slipEsc then some [b]
    else
      match policy with
      | .reject => none
      | .drop => some []
  | b :: c :: rest =>
    if b ≠ p.slipEsc then (unstuff p policy (c :: rest)).map fun o => b :: o
    else if c = p.slipEscEnd then (unstuff p policy rest).map fun o => p.slipEnd :: o
    else if c = p.slipEscEsc then (unstuff p policy rest).map fun o => p.slipEsc :: o
    else
      match policy with
      | .reject => none
      | .drop => unstuff p policy rest

/-- `slip_decode` (41_framer.md R123): `none` for `DECODE_ERROR`. -/
def slipDecode (p : SlipParams) (policy : EscPolicy) (bytes : Bytes) : Option Bytes :=
  unstuff p policy (stripEnds p bytes)

/-- Returning a byte sequence with its length as the value (R121, R123; 42_packet.md R144; 43_transport.md R165). -/
def completeBytes (out : Bytes) (s : State) : State := complete .ok (lengthValue out.length) out s

/-- SLIP_ENCODE (41_framer.md R121). -/
def execSlipEncode (data : Bytes) (s : State) : Host.Outcome State Fault Refusal :=
  .next (completeBytes (slipEncode s.cfg.slip data) s)

/-- The completion of SLIP_DECODE: the body, or `DECODE_ERROR` with `value` 0 and no output (41_framer.md R123). -/
def decodeCompletion (result : Option Bytes) (s : State) : State :=
  match result with
  | some o => completeBytes o s
  | none => raiseError .decodeError s

/-- SLIP_DECODE (41_framer.md R123). -/
def execSlipDecode (data : Bytes) (s : State) : Host.Outcome State Fault Refusal :=
  .next (decodeCompletion (slipDecode s.cfg.slip s.cfg.escPolicy data) s)

end Sys2Proof.Machine
end

