-- ==== Sys2Proof/Machine/Packet.lean ====
section
/-! DEFINITION. The header bit-packer, the packet builder and the acknowledgment parser: PACK_HEADER, BUILD_PACKET,
PARSE_ACK (spec/42_packet.md; wire formats spec/30_encoding.md R60 to R64). -/

namespace Sys2Proof.Machine

/-- `b0` (42_packet.md R140): `seq | (ack << 3) | (1 << 6) | (1 << 7)` with `ack = (seq + 1) mod 8`. -/
def headerByte0 (seq : BitVec 3) : Byte :=
  seq.setWidth 8 ||| ((seq + 1#3).setWidth 8 <<< 3) ||| (1#8 <<< 6) ||| (1#8 <<< 7)

/-- `b1` (R140): the packet type and `n[3:0]`. -/
def headerByte1 (n : BitVec 12) : Byte := pktType ||| ((n.extractLsb' 0 4).setWidth 8 <<< 4)

/-- `b2` (R140): `n[11:4]`. -/
def headerByte2 (n : BitVec 12) : Byte := n.extractLsb' 4 8

/-- `b3` (R140, 30_encoding.md R64): `(256 − ((b0 + b1 + b2) mod 256)) mod 256` on integers. -/
def headerCheck (b0 b1 b2 : Byte) : Byte :=
  BitVec.ofNat 8 ((256 - (b0.toNat + b1.toNat + b2.toNat) % 256) % 256)

/-- `b3` of the header (R140). -/
def headerByte3 (seq : BitVec 3) (n : BitVec 12) : Byte :=
  headerCheck (headerByte0 seq) (headerByte1 n) (headerByte2 n)

/-- `header(seq, n)` (42_packet.md R140). -/
def header (seq : BitVec 3) (n : BitVec 12) : Bytes :=
  [headerByte0 seq, headerByte1 n, headerByte2 n, headerByte3 seq n]

/-- The header's four bytes as PACK_HEADER's value: `h[0] | h[1] << 8 | h[2] << 16 | h[3] << 24` (42_packet.md R142). -/
def headerValue (seq : BitVec 3) (n : BitVec 12) : U32 :=
  (headerByte0 seq).setWidth 32 ||| ((headerByte1 n).setWidth 32 <<< 8) |||
    ((headerByte2 n).setWidth 32 <<< 16) ||| ((headerByte3 seq n).setWidth 32 <<< 24)

/-- `raw_packet(seq, p)` for `len(p) ≤ 4095` (42_packet.md R143): header, payload, little-endian checksum trailer. -/
def rawPacket (seq : BitVec 3) (payload : Bytes) : Bytes :=
  let body := header seq (BitVec.ofNat 12 payload.length) ++ payload
  body ++ le16 (checksum body)

/-- `packet(seq, p) = slip_encode(raw_packet(seq, p))` (42_packet.md R145). -/
def packet (p : SlipParams) (seq : BitVec 3) (payload : Bytes) : Bytes := slipEncode p (rawPacket seq payload)

/-- PACK_HEADER (42_packet.md R142). -/
def execPackHeader (sq : BitVec 3) (n : U16) (s : State) : Host.Outcome State Fault Refusal :=
  .next
    (if maxPayload < n.toNat then raiseError .payloadTooLong s
     else complete .ok (headerValue sq (n.setWidth 12)) (header sq (n.setWidth 12)) s)

/-- BUILD_PACKET (42_packet.md R144). -/
def execBuildPacket (sq : BitVec 3) (payload : Bytes) (s : State) : Host.Outcome State Fault Refusal :=
  .next
    (if maxPayload < payload.length then raiseError .payloadTooLong s
     else completeBytes (packet s.cfg.slip sq payload) s)

/-- The `ACK` field of a decoded body: bits 5..3 of its first byte, where it has at least four (30_encoding.md R73,
42_packet.md R146). -/
def parseAck (body : Bytes) : Option (BitVec 3) :=
  match body with
  | b0 :: _ :: _ :: _ :: _ => some (b0.extractLsb' 3 3)
  | _ => none

/-- The completion of PARSE_ACK (42_packet.md R146). -/
def ackCompletion (ack : Option (BitVec 3)) (s : State) : State :=
  match ack with
  | some a => complete .ok (a.setWidth 32) [] s
  | none => raiseError .malformedAck s

/-- PARSE_ACK (42_packet.md R146). -/
def execParseAck (body : Bytes) (s : State) : Host.Outcome State Fault Refusal :=
  .next (ackCompletion (parseAck body) s)

end Sys2Proof.Machine
end

