-- ==== Sys2Proof/Machine/Transport.lean ====
section
/-! DEFINITION. The frame transport interface: TX_WRITE, RX_READ_FRAME and the packet-send primitive SEND_PACKET
(spec/43_transport.md R160 to R178). -/

namespace Sys2Proof.Machine

/-- TX_WRITE while `WFAIL` is 0 (43_transport.md R161). -/
def txWriteOpen (data : Bytes) (s : State) : State :=
  match uartWrite data s with
  | (.ok, s') => complete .ok (lengthValue data.length) [] s'
  | (.ioError _, s') => raiseError .writeFailure { s' with wfail := true }

/-- TX_WRITE (43_transport.md R161): while `WFAIL` is 1 no draw is taken and nothing is sent. -/
def execTxWrite (data : Bytes) (s : State) : Host.Outcome State Fault Refusal :=
  .next (if s.wfail = true then raiseError .sessionFailed s else txWriteOpen data s)

/-- The completion of RX_READ_FRAME (43_transport.md R165). -/
def readCompletion (r : ReadResult) (s : State) : State :=
  match r with
  | .frame f => completeBytes f s
  | .timeout => raiseError .readTimeout s
  | .ioError => raiseError .readIoError s

/-- RX_READ_FRAME (43_transport.md R165): allowed while `WFAIL` is 1, never changes `SEQ`. -/
def execRxReadFrame (timeoutMs : U32) (s : State) : Host.Outcome State Fault Refusal :=
  .next
    (match uartReadFrame timeoutMs s with
     | (r, s') => readCompletion r s')

/-- SEND_PACKET's read (43_transport.md R170, R172, R173): a frame leaves `SEQ` as it is, whatever it decodes to; a
timeout or an I/O error sets it to 0. R170 also decodes and parses the frame and discards both outcomes; those steps
"change no state, and a model may omit them" (R174; notes 9, 14). -/
def sendDrain (s : State) : State :=
  match uartReadFrame ackTimeoutMs s with
  | (.frame _, s') => s'
  | (.timeout, s') => { s' with seq := 0#3 }
  | (.ioError, s') => { s' with seq := 0#3 }

/-- SEND_PACKET's write and what follows it, with `SEQ` already incremented (43_transport.md R170). -/
def sendFrame (payload : Bytes) (s : State) : State :=
  match uartWrite (packet s.cfg.slip s.seq payload) s with
  | (.ok, s') => complete .ok 0#32 [] (sendDrain s')
  | (.ioError _, s') => raiseError .writeFailure { s' with wfail := true }

/-- The packet-send primitive (43_transport.md R170), its steps in order. -/
def sendPacket (payload : Bytes) (s : State) : State :=
  if s.wfail = true then raiseError .sessionFailed s
  else if maxPayload < payload.length then raiseError .payloadTooLong s
  else sendFrame payload { s with seq := s.seq + 1#3 }

/-- SEND_PACKET (43_transport.md R170). -/
def execSendPacket (payload : Bytes) (s : State) : Host.Outcome State Fault Refusal :=
  .next (sendPacket payload s)

end Sys2Proof.Machine
end

