-- ==== Sys2Proof/Machine/Dfu.lean ====
section
/-! DEFINITION. The four DFU payload opcodes (spec/30_encoding.md R74; spec/48_host_protocol.md R200 to R205). A payload
that begins with the opcode is handed to the packet-send primitive, which carries it as opaque bytes (spec/42_packet.md
R141; note 6). -/

namespace Sys2Proof.Machine

/-- DFU_INIT: SEND_PACKET of the payload `01 00 00 00 ++ rest` (R74, R202, R205). -/
def execDfuInit (rest : Bytes) (s : State) : Host.Outcome State Fault Refusal :=
  .next (sendPacket (dfuPayload .init rest) s)

/-- DFU_START: SEND_PACKET of the payload `03 00 00 00 ++ rest` (R74, R200, R205). -/
def execDfuStart (rest : Bytes) (s : State) : Host.Outcome State Fault Refusal :=
  .next (sendPacket (dfuPayload .start rest) s)

/-- DFU_DATA: SEND_PACKET of the payload `04 00 00 00 ++ rest` (R74, R203, R205). -/
def execDfuData (rest : Bytes) (s : State) : Host.Outcome State Fault Refusal :=
  .next (sendPacket (dfuPayload .data rest) s)

/-- DFU_STOP: SEND_PACKET of the payload `05 00 00 00 ++ rest` (R74, R204, R205). -/
def execDfuStop (rest : Bytes) (s : State) : Host.Outcome State Fault Refusal :=
  .next (sendPacket (dfuPayload .stop rest) s)

end Sys2Proof.Machine
end

