-- ==== Sys2Proof/Machine/Housekeeping.lean ====
section
/-! DEFINITION. STATUS_READ and SESSION_RESET (spec/43_transport.md R180, R181). -/

namespace Sys2Proof.Machine

/-- STATUS_READ (43_transport.md R180): returns the STATUS view and leaves `STATUS.RESULT` as it was. -/
def execStatusRead (s : State) : Host.Outcome State Fault Refusal :=
  .next { s with reply := some { code := .ok, value := statusWord s, out := [] } }

/-- SESSION_RESET (43_transport.md R181). -/
def execSessionReset (s : State) : Host.Outcome State Fault Refusal :=
  .next (complete .ok 0#32 [] (resetRegisters s))

end Sys2Proof.Machine
end

