-- ==== Sys2Proof/Machine/Dispatch.lean ====
section
/-! DEFINITION. One arm per instruction: its meaning. -/

namespace Sys2Proof.Machine

def exec (i : Instr) (s : State) : Host.Outcome State Fault Refusal :=
  match i with
  | .crcInit => Sys2Proof.Machine.execCrcInit s
  | .crcUpdate data => Sys2Proof.Machine.execCrcUpdate data s
  | .checksum data => Sys2Proof.Machine.execChecksum data s
  | .slipEncode data => Sys2Proof.Machine.execSlipEncode data s
  | .slipDecode data => Sys2Proof.Machine.execSlipDecode data s
  | .packHeader sq n => Sys2Proof.Machine.execPackHeader sq n s
  | .buildPacket sq payload => Sys2Proof.Machine.execBuildPacket sq payload s
  | .parseAck body => Sys2Proof.Machine.execParseAck body s
  | .txWrite data => Sys2Proof.Machine.execTxWrite data s
  | .rxReadFrame timeoutMs => Sys2Proof.Machine.execRxReadFrame timeoutMs s
  | .sendPacket payload => Sys2Proof.Machine.execSendPacket payload s
  | .statusRead => Sys2Proof.Machine.execStatusRead s
  | .sessionReset => Sys2Proof.Machine.execSessionReset s
  | .dfuInit rest => Sys2Proof.Machine.execDfuInit rest s
  | .dfuStart rest => Sys2Proof.Machine.execDfuStart rest s
  | .dfuData rest => Sys2Proof.Machine.execDfuData rest s
  | .dfuStop rest => Sys2Proof.Machine.execDfuStop rest s

end Sys2Proof.Machine
end

