-- ==== Sys2Proof/Machine/Fetch.lean ====
section
/-! DEFINITION. Taking what the host does next: the block fetches no instructions (spec/10_state.md R21), it is given one
command at a time and each "is taken whole at issue" (spec/20_memory.md R55). -/

namespace Sys2Proof.Machine

/-- What the block finds at its command interface. -/
inductive Fetched where
  /-- The model gives no meaning. -/
  | refused (r : Refusal)
  /-- No instruction runs; this is the state afterwards. -/
  | settled (s : State)
  /-- The instruction runs in this state. -/
  | run (i : Instr) (s : State)
  deriving DecidableEq, Repr

/-- What a host item that is no instruction does: an undefined DFU opcode is refused (note 7), and a command that fails
a check of 30_encoding.md R69 completes with `ILLEGAL_COMMAND`. -/
def rejectItem (why : Rejection) (s : State) : Fetched :=
  match why with
  | .undefinedDfuOpcode => .refused .undefinedDfuOpcode
  | .reservedBits => .settled (illegalCommand s)
  | .unassignedOp => .settled (illegalCommand s)
  | .sqNotUsed => .settled (illegalCommand s)
  | .dataTooLong => .settled (illegalCommand s)
  | .dataShape => .settled (illegalCommand s)
  | .notACommand => .settled s

/-- A host item taken, in the state that no longer has it pending: a wait leaves the block idle, which "holds its state"
(60_exceptions.md R254); hardware reset is 70_reset_and_hazards.md R280; the rest is decoded. -/
def takeItem (h : HostItem) (s : State) : Fetched :=
  match h with
  | .wait _ => .settled s
  | .hardwareReset => .settled (hardwareReset s)
  | .command w data =>
    match decode (maxData s.cfg) (.command w data) with
    | .ok i => .run i s
    | .error why => rejectItem why s
  | .payload bytes =>
    match decode (maxData s.cfg) (.payload bytes) with
    | .ok i => .run i s
    | .error why => rejectItem why s

/-- The fetch: a parameter set that breaks 00_scope.md R10 is refused (note 17); with nothing pending the block is idle (R254);
else the oldest pending item is taken. -/
def fetch (s : State) : Fetched :=
  if slipLegal s.cfg.slip = false then .refused .illegalConfiguration
  else
    match s.pending with
    | [] => .settled s
    | h :: rest => takeItem h { s with pending := rest }

/-- The host issues `h` before everything it still has pending. -/
def issueFirst (h : HostItem) (s : State) : State := { s with pending := h :: s.pending }

end Sys2Proof.Machine
end

