-- ==== Sys2Proof/Machine/Step.lean ====
section
/-! DEFINITION. One step of the machine: one thing the host does (spec/92_eei_decisions.md D1: "Each command is one atomic
step of the block"). -/

namespace Sys2Proof.Machine

/-- One step: what the fetch finds, run by its meaning. -/
def step (s : State) : Host.Outcome State Fault Refusal :=
  match fetch s with
  | .refused r => .refused r
  | .settled s' => .next s'
  | .run i s' => exec i s'

/-- `s` with a row of spec/opcode_table.json standing where the next step takes its command: first among what the host
has pending (note 1). -/
def State.withFetchWord (s : State) (nbits w : Nat) : State := issueFirst (hostItemOfTableWord nbits w) s

end Sys2Proof.Machine
end

