-- ==== Sys2Proof/Machine/Assembler.lean ====
section
/-! DEFINITION. The written form of a command (spec/30_encoding.md R75, R76): `MNEMONIC [seq=<0..7>] [<data>]`, and the
three pseudo-commands. A line is a list of characters. It is a convention for the host's programs; the block never
sees a line. -/

namespace Sys2Proof.Machine

/-- The mnemonics of 30_encoding.md R67. -/
def opName : Op → List Char
  | .crcInit => ['C', 'R', 'C', '_', 'I', 'N', 'I', 'T']
  | .crcUpdate => ['C', 'R', 'C', '_', 'U', 'P', 'D', 'A', 'T', 'E']
  | .checksum => ['C', 'H', 'E', 'C', 'K', 'S', 'U', 'M']
  | .slipEncode => ['S', 'L', 'I', 'P', '_', 'E', 'N', 'C', 'O', 'D', 'E']
  | .slipDecode => ['S', 'L', 'I', 'P', '_', 'D', 'E', 'C', 'O', 'D', 'E']
  | .packHeader => ['P', 'A', 'C', 'K', '_', 'H', 'E', 'A', 'D', 'E', 'R']
  | .buildPacket => ['B', 'U', 'I', 'L', 'D', '_', 'P', 'A', 'C', 'K', 'E', 'T']
  | .parseAck => ['P', 'A', 'R', 'S', 'E', '_', 'A', 'C', 'K']
  | .txWrite => ['T', 'X', '_', 'W', 'R', 'I', 'T', 'E']
  | .rxReadFrame => ['R', 'X', '_', 'R', 'E', 'A', 'D', '_', 'F', 'R', 'A', 'M', 'E']
  | .sendPacket => ['S', 'E', 'N', 'D', '_', 'P', 'A', 'C', 'K', 'E', 'T']
  | .statusRead => ['S', 'T', 'A', 'T', 'U', 'S', '_', 'R', 'E', 'A', 'D']
  | .sessionReset => ['S', 'E', 'S', 'S', 'I', 'O', 'N', '_', 'R', 'E', 'S', 'E', 'T']

/-- The pseudo-commands of R76. -/
inductive Pseudo where
  | checksumOf
  | readAck
  | frame
  deriving DecidableEq, Repr

/-- Their mnemonics (R76). -/
def pseudoName : Pseudo → List Char
  | .checksumOf => ['C', 'H', 'E', 'C', 'K', 'S', 'U', 'M', '_', 'O', 'F']
  | .readAck => ['R', 'E', 'A', 'D', '_', 'A', 'C', 'K']
  | .frame => ['F', 'R', 'A', 'M', 'E']

/-! ## Words of a line -/

/-- The words of a line, `current` being the one under way.
DESIGN CHOICE: words are separated by one or more spaces (note 12). Safe. -/
def wordsFrom (current : List Char) : List Char → List (List Char)
  | [] => if current = [] then [] else [current]
  | c :: cs =>
    if c = ' ' then (if current = [] then wordsFrom [] cs else current :: wordsFrom [] cs)
    else wordsFrom (current ++ [c]) cs

/-- A hex digit's value. DESIGN CHOICE: both letter cases are read (note 12). Safe. -/
def hexValue (c : Char) : Option Nat :=
  if 48 ≤ c.toNat ∧ c.toNat ≤ 57 then some (c.toNat - 48)
  else if 97 ≤ c.toNat ∧ c.toNat ≤ 102 then some (c.toNat - 87)
  else if 65 ≤ c.toNat ∧ c.toNat ≤ 70 then some (c.toNat - 55)
  else none

/-- `DATA` bytes: "contiguous pairs of hex digits, most significant digit first in each pair, byte 0 first" (R75). -/
def hexBytes : List Char → Option Bytes
  | [] => some []
  | [_] => none
  | a :: b :: rest =>
    match hexValue a, hexValue b, hexBytes rest with
    | some x, some y, some bytes => some (BitVec.ofNat 8 (16 * x + y) :: bytes)
    | _, _, _ => none

/-- The `<data>` operand: nothing, `""`, or hex pairs (R75). -/
def dataOperand : List (List Char) → Option Bytes
  | [] => some []
  | [word] => if word = [Char.ofNat 34, Char.ofNat 34] then some [] else hexBytes word
  | _ => none

/-- The `seq=<0..7>` operand, 0 if omitted, and the words after it (R75). -/
def seqOperand (words : List (List Char)) : Option (BitVec 3 × List (List Char)) :=
  match words with
  | ('s' :: 'e' :: 'q' :: '=' :: digits) :: rest =>
    match digits with
    | [d] => if 48 ≤ d.toNat ∧ d.toNat ≤ 55 then some (BitVec.ofNat 3 (d.toNat - 48), rest) else none
    | _ => none
  | _ => some (0#3, words)

/-! ## Lines -/

/-- A command line after its mnemonic (R75): the `seq=` operand "appears only for PACK_HEADER and BUILD_PACKET". -/
def assembleOp (o : Op) (words : List (List Char)) : Option HostItem :=
  if usesSq o = true then
    match seqOperand words with
    | none => none
    | some (sq, rest) => (dataOperand rest).map fun data => .command (commandWord o sq) data
  else (dataOperand words).map fun data => .command (commandWord o 0#3) data

/-- A pseudo-command after its mnemonic (R76).
DESIGN CHOICE: FRAME without its `seq=` operand is read as BUILD_PACKET without it, with sequence number 0; R76 writes
the operand and does not say that it may be left out (note 23). Safe: the block never sees a line. -/
def assemblePseudo (p : Pseudo) (words : List (List Char)) : Option HostItem :=
  match p with
  | .checksumOf => assembleOp .checksum words
  | .readAck => if words = [] then some (encode (.rxReadFrame ackTimeoutMs)) else none
  | .frame => assembleOp .buildPacket words

/-- A line of the assembler (R75, R76); `none` for a line the syntax does not have. -/
def assembleLine (line : List Char) : Option HostItem :=
  match wordsFrom [] line with
  | [] => none
  | name :: words =>
    match allOps.find? (fun o => opName o == name) with
    | some o => assembleOp o words
    | none =>
      match [Pseudo.checksumOf, .readAck, .frame].find? (fun p => pseudoName p == name) with
      | some p => assemblePseudo p words
      | none => none

/-- A hex digit, as R75's examples write it. -/
def hexChar (n : Nat) : Char := if n < 10 then Char.ofNat (48 + n) else Char.ofNat (87 + n)

/-- Bytes as hex pairs (R75). -/
def hexText (bytes : Bytes) : List Char :=
  bytes.flatMap fun b => [hexChar (b.toNat / 16), hexChar (b.toNat % 16)]

/-- A command as a line (R75): `seq=` for the two commands that use it, and no data operand for empty `DATA`. -/
def writeLine (o : Op) (sq : BitVec 3) (data : Bytes) : List Char :=
  opName o ++ (if usesSq o = true then [' ', 's', 'e', 'q', '=', Char.ofNat (48 + sq.toNat)] else []) ++
    (if data = [] then [] else ' ' :: hexText data)

end Sys2Proof.Machine
end

