-- ==== Sys2Proof/Machine/HostProtocol.lean ====
section
/-! DEFINITION. What the host puts on the block's interface (spec/48_host_protocol.md): payloads, the transfer program,
waits and reported numbers. "These rules bind the *host*, not the block", so no meaning of an instruction calls
anything here; a program built here is what `State.pending` may hold. -/

namespace Sys2Proof.Machine

/-- `ceil(a / b)`. -/
def ceilDiv (a b : Nat) : Nat := (a + b - 1) / b

/-! ## Payloads -/

/-- The Start payload for an image of `len` bytes, `len` below 2^32 (48_host_protocol.md R200): opcode, mode 4, two
sizes 0, and the length. -/
def startPayload (len : Nat) : Bytes :=
  le32 (dfuCode .start) ++ le32 4#32 ++ le32 0#32 ++ le32 0#32 ++ le32 (BitVec.ofNat 32 len)

/-- The Init payload of an init-metadata blob of at most 4089 bytes (R202): exactly two zero bytes of padding. -/
def initPayload (blob : Bytes) : Bytes := le32 (dfuCode .init) ++ blob ++ [0#8, 0#8]

/-- The number of chunks of an image of `len` bytes (R203, R213). -/
def chunkCount (len : Nat) : Nat := ceilDiv len 512

/-- Chunk `j`: `image[512j .. min(512(j+1), L))` (R203). -/
def chunk (image : Bytes) (j : Nat) : Bytes := (image.drop (512 * j)).take 512

/-- The Data payload of chunk `j` (R203). -/
def dataPayload (image : Bytes) (j : Nat) : Bytes := le32 (dfuCode .data) ++ chunk image j

/-- The Stop payload (R204). -/
def stopPayload : Bytes := le32 (dfuCode .stop)

/-! ## Waits -/

/-- `pages = ceil(L / 4096)` (R201). -/
def erasePages (len : Nat) : Nat := ceilDiv len 4096

/-- `eraseMs = max(pages × 90, 1000)` (R201). -/
def eraseMs (len : Nat) : Nat := max (erasePages len * 90) 1000

/-- The settle delay after the Init packet (R202, 70_reset_and_hazards.md R292). -/
def settleMs : Nat := 300

/-- The page-write delay (R206, 70_reset_and_hazards.md R293). -/
def pageWriteMs : Nat := 100

/-- Whether the host waits after chunk `j` of `n`: after every eighth, but not after the last (R205, R206;
90_conflicts.md C4). -/
def pageDelayAfter (n j : Nat) : Bool := decide ((j + 1) % 8 = 0) && decide (j + 1 ≠ n)

/-! ## The transfer program -/

/-- `SEND_PACKET payload`. -/
def sendItem (payload : Bytes) : HostItem := encode (.sendPacket payload)

/-- The states of a transfer, "in strict order, no branching back" (R205), `transferringData` with the chunk it is at,
and `failed` (R207). -/
inductive TransferPhase where
  | idle
  | starting
  | erasingWait
  | sendingInit
  | transferringData (chunk : Nat)
  | finalizing
  | complete
  | failed
  deriving DecidableEq, Repr

/-- What the host does for chunk `j` of `n` (R205). -/
def chunkItems (image : Bytes) (n j : Nat) : List HostItem :=
  sendItem (dataPayload image j) :: (if pageDelayAfter n j then [.wait pageWriteMs] else [])

/-- The host's plan of a whole transfer (R205): each thing it does, with the state it does it in. -/
def transferPlan (image blob : Bytes) : List (TransferPhase × HostItem) :=
  [(.idle, encode .sessionReset), (.starting, sendItem (startPayload image.length)),
    (.erasingWait, .wait (eraseMs image.length)),
    (.sendingInit, sendItem (initPayload blob)), (.sendingInit, .wait settleMs)] ++
  (List.range (chunkCount image.length)).flatMap
    (fun j => (chunkItems image (chunkCount image.length) j).map fun h => (.transferringData j, h)) ++
  [(.finalizing, sendItem stopPayload)]

/-- A whole transfer, in order and never going back (R205): what the plan does. -/
def transferProgram (image blob : Bytes) : List HostItem := (transferPlan image blob).map Prod.snd

/-- The images and blobs the protocol admits: `L` below 2^32 (R200), `len(I) ≤ 4089` (R202). -/
def transferable (image blob : Bytes) : Bool :=
  decide (image.length < 4294967296) && decide (blob.length ≤ 4089)

/-! ## Failure -/

/-- What the host keeps of a transfer: the state it is in, and the index of the chunk whose send failed, once recorded
(R207). The block keeps neither (10_state.md R32). -/
structure HostRecord where
  phase : TransferPhase
  failedChunk : Option Nat
  deriving DecidableEq, Repr

/-- The record before a transfer. -/
def HostRecord.start : HostRecord := { phase := .idle, failedChunk := none }

/-- A host item that is a SEND_PACKET: its command word is 0x0040 (30_encoding.md R67). -/
def isSend (h : HostItem) : Bool :=
  match h with
  | .command w _ => decide (w = 0x0040#16)
  | .payload _ => false
  | .wait _ => false
  | .hardwareReset => false

/-- A SEND_PACKET that completed with `WRITE_FAILURE` (R207). -/
def sendFailed (h : HostItem) (s : State) : Bool :=
  isSend h && decide (s.reply.map Reply.code = some .writeFailure)

/-- The index the host records when a send of this state fails: "In the data phase it first records the failing chunk
index" (R207), the `j` of R203 (note 22). -/
def failingChunk (phase : TransferPhase) : Option Nat :=
  match phase with
  | .transferringData j => some j
  | .idle | .starting | .erasingWait | .sendingInit | .finalizing | .complete | .failed => none

/-- The host after the completion of `h`, done in the state `phase`: if it is a SEND_PACKET that completed with
`WRITE_FAILURE`, the host records the failing chunk index, is `failed`, and "stops the transfer" (R207), so that
nothing more is pending. It "takes no decision on SEND_PACKET's acknowledgment" (R208; note 21).
DESIGN CHOICE: on every other code it goes on, `PAYLOAD_TOO_LONG` for an init blob over 4089 bytes among them; the spec
does not say what it does then (91_not_in_source.md N18; note 25). Unsafe for a claim about such a transfer. -/
def hostReaction (phase : TransferPhase) (h : HostItem) (record : HostRecord) (s : State) : HostRecord × State :=
  if sendFailed h s = true then
    ({ phase := .failed, failedChunk := failingChunk phase }, { s with pending := [] })
  else ({ record with phase := phase }, s)

/-- The record when the host has nothing more to issue: `complete` after `finalizing` (R205), else as it stands.
DESIGN CHOICE: a cancelled transfer, a plan cut short (R209), stays in the state of the last thing done; R209,
43_transport.md R178 and 60_exceptions.md R241 name none (note 24). Unsafe for a claim about that state. -/
def HostRecord.finish (record : HostRecord) : HostRecord :=
  if record.phase = .finalizing then { record with phase := .complete } else record

/-- The host carrying out a plan, one command at a time (70_reset_and_hazards.md R290): it issues an item, waits for its
completion, reacts to it, and goes on unless it is `failed`. Cancelling (R209) is giving it only the plan's first part. -/
def conductTransfer (plan : List (TransferPhase × HostItem)) (record : HostRecord) (s : State) :
    Host.Outcome (HostRecord × State) Fault Refusal :=
  match plan with
  | [] => .next (record.finish, s)
  | (phase, h) :: rest =>
    match step (issueFirst h s) with
    | .next s' =>
      match hostReaction phase h record s' with
      | (record', s'') =>
        if record'.phase = .failed then .next (record', s'') else conductTransfer rest record' s''
    | .fault f => .fault f
    | .refused f => .refused f

/-! ## Reported numbers -/

/-- `8 + round((sent / n) × 82)` with halves rounded up (R211; 92_eei_decisions.md D29). -/
def dataProgress (n sent : Nat) : Nat := 8 + (2 * 82 * sent + n) / (2 * n)

/-- The progress values of one transfer of an image of `len` bytes, in order (R211): 0, 2, 5, the data phase from 8
(none when there is no chunk), 95, 100. -/
def progressValues (len : Nat) : List Nat :=
  [0, 2, 5] ++
  (if chunkCount len = 0 then []
   else (List.range (chunkCount len + 1)).map (dataProgress (chunkCount len))) ++
  [95, 100]

/-- Whether the host logs at `percent` when it last logged at `last`: an advance of "at least 2 points" (R212). -/
def logDue (last percent : Nat) : Bool := decide (last + 2 ≤ percent)

end Sys2Proof.Machine
end

