-- ==== Sys2Proof/Safety.lean ====
section
/-! DEFINITION. The terms the statements use: what a sound state is, runs of the machine, and the spec's own forms of a
few things that the model computes otherwise (the bit-serial CRC, the decoder's loop, the checks of R69 on numbers). -/

namespace Sys2Proof.Machine

/-! ## Sound states -/

/-- "A command that completes with a code other than `OK` returns `value = 0` and `out = []`" (spec/30_encoding.md
R68). -/
def ReplyCanonical (s : State) : Prop :=
  ∀ r : Reply, s.reply = some r → r.code ≠ .ok → r.value = 0#32 ∧ r.out = []

/-- "Between commands `RX` is therefore always (`hunting`, `[]`)" (spec/10_state.md R27). -/
def ReceiverIdle (s : State) : Prop := s.rx = Rx.idle

/-- A write failure, and a refusal because of one, are only ever recorded while `WFAIL` holds (spec/10_state.md R25,
spec/43_transport.md R177). -/
def FailureHeld (s : State) : Prop :=
  s.result = .writeFailure ∨ s.result = .sessionFailed → s.wfail = true

/-- The parameters keep to spec/00_scope.md R10. -/
def ParametersLegal (s : State) : Prop := slipLegal s.cfg.slip = true

/-- The invariant of the block between commands. -/
structure Sound (s : State) : Prop where
  replyCanonical : ReplyCanonical s
  receiverIdle : ReceiverIdle s
  failureHeld : FailureHeld s
  parametersLegal : ParametersLegal s

/-! ## Runs -/

/-- `k` steps of the machine. -/
def run (k : Nat) (s : State) : Host.Outcome State Fault Refusal := Host.Core.run Sys2Proof.core k s

/-- An outcome with its next state changed by `f`. -/
def mapNext (f : State → State) (o : Host.Outcome State Fault Refusal) : Host.Outcome State Fault Refusal :=
  match o with
  | .next s => .next (f s)
  | .fault r => .fault r
  | .refused r => .refused r

/-- `s` on another serial line and another host binding: the two parameters that no rule reads (spec/43_transport.md
R182, spec/20_memory.md R48). -/
def onOtherLine (u : UartConfig) (b : HostBinding) (s : State) : State :=
  { s with cfg := { s.cfg with uart := u, hostBinding := b } }

/-! ## Kinds of host items and instructions -/

/-- A host item that starts a new session (spec/00_scope.md R17): SESSION_RESET or hardware reset. -/
def startsSession (h : HostItem) : Bool :=
  match h with
  | .command w data => decide (w = 0x0051#16) && decide (data = [])
  | .payload _ => false
  | .wait _ => false
  | .hardwareReset => true

/-- The payload an instruction hands to the packet-send primitive (spec/43_transport.md R170; the DFU payloads of
spec/30_encoding.md R74, note 6). -/
def sendsPayload (i : Instr) : Option Bytes :=
  match i with
  | .sendPacket payload => some payload
  | .dfuInit rest => some ([1#8, 0#8, 0#8, 0#8] ++ rest)
  | .dfuStart rest => some ([3#8, 0#8, 0#8, 0#8] ++ rest)
  | .dfuData rest => some ([4#8, 0#8, 0#8, 0#8] ++ rest)
  | .dfuStop rest => some ([5#8, 0#8, 0#8, 0#8] ++ rest)
  | .crcInit | .crcUpdate _ | .checksum _ | .slipEncode _ | .slipDecode _ | .packHeader _ _
  | .buildPacket _ _ | .parseAck _ | .txWrite _ | .rxReadFrame _ | .statusRead | .sessionReset => none

/-- The payloads of a transfer in the order they are sent (spec/48_host_protocol.md R205): Start, Init, the chunks' Data
payloads, Stop. -/
def transferPayloads (image blob : Bytes) : List Bytes :=
  [startPayload image.length, initPayload blob] ++
  (List.range (chunkCount image.length)).map (dataPayload image) ++ [stopPayload]

/-- The commands that spec/20_memory.md R47 calls pure and whose repetition changes nothing: all of its list but
CRC_UPDATE, which "folds into the first's result". -/
def repeatable (i : Instr) : Bool :=
  match i with
  | .crcInit | .checksum _ | .slipEncode _ | .slipDecode _ | .packHeader _ _ | .buildPacket _ _
  | .parseAck _ | .statusRead => true
  | .crcUpdate _ | .txWrite _ | .rxReadFrame _ | .sendPacket _ | .sessionReset
  | .dfuInit _ | .dfuStart _ | .dfuData _ | .dfuStop _ => false

/-! ## The spec's own forms -/

/-- The checks of spec/30_encoding.md R69 on the numbers of the command word, for `MAX_DATA = limit`: reserved bits, an
unassigned `OP`, `SQ` on a command that does not use it, too much `DATA`, or `DATA` of the wrong shape. -/
def FailsR69 (limit : Nat) (w : U16) (data : Bytes) : Prop :=
  w.toNat / 2048 ≠ 0 ∨
  w.toNat % 256 ∉ [0x01, 0x02, 0x03, 0x10, 0x11, 0x20, 0x21, 0x22, 0x30, 0x31, 0x40, 0x50, 0x51] ∨
  (w.toNat / 256 % 8 ≠ 0 ∧ w.toNat % 256 ∉ [0x20, 0x21]) ∨
  limit < data.length ∨
  (w.toNat % 256 ∈ [0x01, 0x50, 0x51] ∧ data ≠ []) ∨
  (w.toNat % 256 = 0x20 ∧ data.length ≠ 2) ∨
  (w.toNat % 256 = 0x31 ∧ data.length ≠ 4)

/-- One bit of the CRC of spec/40_checksum.md R101: `r <- (r << 1) ^ (0x1021 if r[15] else 0)`. -/
def crcBit (r : U16) : U16 := (r <<< 1) ^^^ (if r.getLsbD 15 then 0x1021#16 else 0#16)

/-- One byte of the bit-serial CRC of R101: `r <- r ^ (x << 8)`, then eight bits. -/
def crcBitSerial (r : U16) (x : Byte) : U16 := Nat.iterate crcBit 8 (r ^^^ (x.setWidth 16 <<< 8))

/-- The loop of spec/41_framer.md R123 over the stripped sequence `s`, at index `i` with output `o`; `fuel` bounds the
rounds (each advances `i`, so `len(s)` rounds are enough). `none` for `DECODE_ERROR`. -/
def decodeLoop (p : SlipParams) (policy : EscPolicy) (s : Bytes) : Nat → Nat → Bytes → Option Bytes
  | 0, _, o => some o
  | fuel + 1, i, o =>
    if i < s.length then
      if s.getD i 0#8 ≠ p.slipEsc then decodeLoop p policy s fuel (i + 1) (o ++ [s.getD i 0#8])
      else if i + 1 = s.length then
        match policy with
        | .reject => none
        | .drop => decodeLoop p policy s fuel (i + 1) o
      else if s.getD (i + 1) 0#8 = p.slipEscEnd then decodeLoop p policy s fuel (i + 2) (o ++ [p.slipEnd])
      else if s.getD (i + 1) 0#8 = p.slipEscEsc then decodeLoop p policy s fuel (i + 2) (o ++ [p.slipEsc])
      else
        match policy with
        | .reject => none
        | .drop => decodeLoop p policy s fuel (i + 2) o
    else some o

end Sys2Proof.Machine
end

