-- ==== Sys2Proof/Certificates/Slice0/Obligations.lean ====
section
/-! DEFINITION. The statements for the provers, each over the spec's numbered rules. `note <n>` is
notes/assumptions/<n>.md. -/

open Sys2Proof Sys2Proof.Machine

/-! ## Decoding, encoding and the step -/

/-- Decoding what the encoder writes gives the instruction back, for every instruction and every parameter set. -/
def Obligations.DecodeInvertsEncode : Prop :=
  ∀ (p : Params) (i : Instr), wellFormed (maxData p) i = true → decode (maxData p) (encode i) = .ok i

/-- Each host item has one reading: what decodes to `i` is the encoding of `i`, and `i` is well formed. -/
def Obligations.EncodeInvertsDecode : Prop :=
  ∀ (p : Params) (h : HostItem) (i : Instr),
    decode (maxData p) h = .ok i → encode i = h ∧ wellFormed (maxData p) i = true

/-- A step runs the decoded instruction, with the item taken off what the host has pending. -/
def Obligations.StepRunsDecodedInstruction : Prop :=
  ∀ (s : State) (h : HostItem) (rest : List HostItem) (i : Instr),
    ParametersLegal s → s.pending = h :: rest → decode (maxData s.cfg) h = .ok i →
    step s = exec i { s with pending := rest }

/-- Words written out from 30_encoding.md R66, R67 and R74 decode to the instructions they stand for. -/
def Obligations.WordsOfTheOpcodeMap : Prop :=
  decode 8204 (.command 0x0001#16 []) = .ok .crcInit ∧
  decode 8204 (.command 0x0010#16 [0x01#8, 0xC0#8]) = .ok (.slipEncode [0x01#8, 0xC0#8]) ∧
  decode 8204 (.command 0x0120#16 [0x14#8, 0x00#8]) = .ok (.packHeader 1#3 20#16) ∧
  decode 8204 (.command 0x0721#16 []) = .ok (.buildPacket 7#3 []) ∧
  decode 8204 (.command 0x0031#16 [0xE8#8, 0x03#8, 0x00#8, 0x00#8]) = .ok (.rxReadFrame 1000#32) ∧
  decode 8204 (.command 0x0040#16 [0x05#8, 0x00#8, 0x00#8, 0x00#8]) =
    .ok (.sendPacket [0x05#8, 0x00#8, 0x00#8, 0x00#8]) ∧
  decode 8204 (.payload [0x05#8, 0x00#8, 0x00#8, 0x00#8]) = .ok (.dfuStop []) ∧
  decode 8204 (.command 0x0801#16 []) = .error .reservedBits ∧
  decode 8204 (.command 0x0101#16 []) = .error .sqNotUsed

/-- 30_encoding.md R69: a command that fails one of the five checks completes with `ILLEGAL_COMMAND` and has no other
effect; one that passes all five runs its own rule. -/
def Obligations.IllegalCommandHasNoOtherEffect : Prop :=
  ∀ (s : State) (w : U16) (data : Bytes) (rest : List HostItem),
    ParametersLegal s → s.pending = .command w data :: rest →
    (FailsR69 (maxData s.cfg) w data →
      step s = .next { s with
        pending := rest, result := .illegalCommand,
        reply := some { code := .illegalCommand, value := 0#32, out := [] } }) ∧
    (¬ FailsR69 (maxData s.cfg) w data →
      ∃ i, decode (maxData s.cfg) (.command w data) = .ok i ∧ step s = exec i { s with pending := rest })

/-- 60_exceptions.md R246: no error is a trap. With legal parameters, a step answers a next state whatever the host
does, a payload written by an undefined DFU opcode excepted (note 7); it takes one item and keeps the parameters. -/
def Obligations.EveryStepCompletes : Prop :=
  ∀ s : State, ParametersLegal s →
    (∀ (bytes : Bytes) (rest : List HostItem), s.pending = .payload bytes :: rest →
      ∃ tag ∈ [1#8, 3#8, 4#8, 5#8], ∃ more, bytes = [tag, 0#8, 0#8, 0#8] ++ more) →
    ∃ t, step s = .next t ∧ t.pending = s.pending.tail ∧ t.cfg = s.cfg

/-- 93_implementation_defined.md I14, as note 7 takes it (the model's choice): a payload written by its DFU opcode is
refused when it has fewer than four bytes, or when the opcode is none of 1, 3, 4, 5. -/
def Obligations.UndefinedDfuOpcodeIsRefused : Prop :=
  ∀ (s : State) (bytes : Bytes) (rest : List HostItem),
    ParametersLegal s → s.pending = .payload bytes :: rest →
    (bytes.length < 4 ∨
      ∃ (d0 d1 d2 d3 : Byte) (more : Bytes), bytes = d0 :: d1 :: d2 :: d3 :: more ∧
        (d0.toNat + 256 * d1.toNat + 65536 * d2.toNat + 16777216 * d3.toNat) ∉ [1, 3, 4, 5]) →
    step s = .refused .undefinedDfuOpcode

/-- 00_scope.md R10: a configuration that breaks a constraint is refused. That every step refuses it, whatever is
pending, is the model's choice (note 17). -/
def Obligations.IllegalConfigurationIsRefused : Prop :=
  ∀ s : State,
    (s.cfg.slip.slipEnd = s.cfg.slip.slipEsc ∨ s.cfg.slip.slipEscEnd = s.cfg.slip.slipEscEsc ∨
      s.cfg.slip.slipEscEnd = s.cfg.slip.slipEnd ∨ s.cfg.slip.slipEscEsc = s.cfg.slip.slipEnd) →
    step s = .refused .illegalConfiguration

/-- 60_exceptions.md R254: between commands, and while a host timer runs (a host item of the model, note 10), the block
is idle and holds its state. -/
def Obligations.IdleBlockHoldsItsState : Prop :=
  ∀ s : State, ParametersLegal s →
    (s.pending = [] → step s = .next s) ∧
    (∀ (ms : Nat) (rest : List HostItem), s.pending = .wait ms :: rest →
      step s = .next { s with pending := rest })

/-- 70_reset_and_hazards.md R280: what power-on, hardware reset and SESSION_RESET set, and that only power-on clears
`TXLOG` (that hardware reset keeps it is the model's reading, note 13). -/
def Obligations.ResetValues : Prop :=
  (State.reset.crc = 0xFFFF#16 ∧ State.reset.seq = 0#3 ∧ State.reset.wfail = false ∧ State.reset.result = .ok ∧
    State.reset.rx = Rx.idle ∧ State.reset.txlog = [] ∧ statusWord State.reset = 0xFFFF0000#32) ∧
  ∀ (s : State) (rest : List HostItem), ParametersLegal s →
    (s.pending = .hardwareReset :: rest ∨ s.pending = .command 0x0051#16 [] :: rest) →
    ∃ t, step s = .next t ∧ t.crc = 0xFFFF#16 ∧ t.seq = 0#3 ∧ t.wfail = false ∧ t.result = .ok ∧
      t.rx = Rx.idle ∧ t.txlog = s.txlog ∧ statusWord t = 0xFFFF0000#32 ∧ t.pending = rest

/-! ## Invariants and whole-machine rules -/

/-- The block's invariant between commands is kept by every step, from every state that has it. -/
def Obligations.StepKeepsSoundness : Prop :=
  ∀ s t : State, Sound s → step s = .next t → Sound t

/-- It holds at reset. The legal SLIP bytes at reset are the spec's defaults (note 2). -/
def Obligations.ResetIsSound : Prop := Sound State.reset

/-- 10_state.md R22, the column "written by": which commands can change `CRC`, `SEQ`, `WFAIL` and `TXLOG`. A payload
written by its DFU opcode is a SEND_PACKET (note 6), and hardware reset keeps `TXLOG` (note 13). -/
def Obligations.OnlyListedCommandsWrite : Prop :=
  ∀ s t : State, step s = .next t →
    (t.crc ≠ s.crc → ∃ h rest, s.pending = h :: rest ∧
      (h = .hardwareReset ∨ ∃ w data, h = .command w data ∧ w ∈ [0x0001#16, 0x0002#16, 0x0003#16, 0x0051#16])) ∧
    (t.seq ≠ s.seq → ∃ h rest, s.pending = h :: rest ∧
      (h = .hardwareReset ∨ (∃ bytes, h = .payload bytes) ∨
        ∃ w data, h = .command w data ∧ w ∈ [0x0040#16, 0x0051#16])) ∧
    (s.wfail = false → t.wfail = true → ∃ h rest, s.pending = h :: rest ∧
      ((∃ bytes, h = .payload bytes) ∨ ∃ w data, h = .command w data ∧ w ∈ [0x0030#16, 0x0040#16])) ∧
    (s.wfail = true → t.wfail = false → ∃ h rest, s.pending = h :: rest ∧ startsSession h = true) ∧
    (t.txlog ≠ s.txlog → ∃ h rest, s.pending = h :: rest ∧
      ((∃ bytes, h = .payload bytes) ∨ ∃ w data, h = .command w data ∧ w ∈ [0x0030#16, 0x0040#16]))

/-- 10_state.md R28 and 20_memory.md R51: over any run, hardware resets among its steps (note 13), `TXLOG` only grows at
its end. -/
def Obligations.WireHistoryOnlyGrows : Prop :=
  ∀ (k : Nat) (s t : State), run k s = .next t → ∃ more, t.txlog = s.txlog ++ more

/-- 43_transport.md R177 and 60_exceptions.md R247: once `WFAIL` is set, no run that starts no new session clears it,
sends a byte, or counts a packet. -/
def Obligations.FailedSessionStaysSilent : Prop :=
  ∀ (k : Nat) (s t : State), s.wfail = true → (∀ h ∈ s.pending.take k, startsSession h = false) →
    run k s = .next t → t.wfail = true ∧ t.txlog = s.txlog ∧ t.seq = s.seq

/-- 60_exceptions.md R247 and R242 step 2: while `WFAIL` is 1, TX_WRITE and every packet send complete with
`SESSION_FAILED` at once, whatever the length of the payload, and change nothing else. -/
def Obligations.FailedSessionRefusesWrites : Prop :=
  ∀ (s : State) (i : Instr), s.wfail = true → ((∃ data, i = .txWrite data) ∨ ∃ p, sendsPayload i = some p) →
    exec i s = .next { s with
      result := .sessionFailed, reply := some { code := .sessionFailed, value := 0#32, out := [] } }

/-- 60_exceptions.md R243: a command that completes with an error code other than `WRITE_FAILURE` changes no state but
`STATUS.RESULT`, and returns nothing; `WRITE_FAILURE` sets `WFAIL`, keeps the `SEQ` increment of a send, and leaves in
`TXLOG` a prefix of what was being written (43_transport.md R160). A payload written by its DFU opcode is such a
send by the model's reading (note 6). -/
def Obligations.ErrorsAreCompletedPrecisely : Prop :=
  ∀ (s t : State) (i : Instr) (r : Reply), ReceiverIdle s → exec i s = .next t → t.reply = some r →
    (r.code ≠ .ok → r.code ≠ .writeFailure →
      r.value = 0#32 ∧ r.out = [] ∧ t.result = r.code ∧ t.crc = s.crc ∧ t.seq = s.seq ∧ t.wfail = s.wfail ∧
        t.rx = s.rx ∧ t.txlog = s.txlog ∧ t.cfg = s.cfg ∧ t.pending = s.pending) ∧
    (r.code = .writeFailure →
      r.value = 0#32 ∧ r.out = [] ∧ t.result = .writeFailure ∧ t.wfail = true ∧ t.crc = s.crc ∧ t.rx = s.rx ∧
        t.cfg = s.cfg ∧ t.pending = s.pending ∧
        ((∃ data k, i = .txWrite data ∧ k ≤ data.length ∧ t.txlog = s.txlog ++ data.take k ∧ t.seq = s.seq) ∨
          ∃ p k, sendsPayload i = some p ∧ k ≤ (packet s.cfg.slip (s.seq + 1#3) p).length ∧
            t.txlog = s.txlog ++ (packet s.cfg.slip (s.seq + 1#3) p).take k ∧ t.seq = s.seq + 1#3))

/-- 30_encoding.md R68 and 10_state.md R26: every instruction returns one triple, and its code is also in
`STATUS.RESULT`; STATUS_READ leaves `STATUS.RESULT` as it was. -/
def Obligations.ResultHoldsTheReturnedCode : Prop :=
  ∀ (s t : State) (i : Instr), exec i s = .next t →
    ∃ r, t.reply = some r ∧ (r.code ≠ .ok → r.value = 0#32 ∧ r.out = []) ∧
      (i ≠ .statusRead → t.result = r.code) ∧ (i = .statusRead → t.result = s.result)

/-- 20_memory.md R47: the pure commands can be repeated with the same operands. The second run leaves every part of the
state, the returned triple among it, as the first left it. -/
def Obligations.PureCommandsRepeat : Prop :=
  ∀ (s t : State) (i : Instr), repeatable i = true → exec i s = .next t → exec i t = .next t

/-- 43_transport.md R182 and 92_eei_decisions.md D25, D3: no step depends on `UART_CONFIG` or `HOST_BINDING`. -/
def Obligations.UnreadParametersDoNotMatter : Prop :=
  ∀ (s : State) (u : UartConfig) (b : HostBinding), step (onOtherLine u b s) = mapNext (onOtherLine u b) (step s)

/-! ## Checksum generator -/

/-- CRC_INIT (40_checksum.md R102). -/
def Obligations.CrcInitResetsTheRegister : Prop :=
  ∀ s : State, exec .crcInit s = .next { s with
    crc := 0xFFFF#16, result := .ok, reply := some { code := .ok, value := 0x0000FFFF#32, out := [] } }

/-- CRC_UPDATE (40_checksum.md R103) in terms of the bit-serial CRC of R101. -/
def Obligations.CrcUpdateFoldsTheBytes : Prop :=
  ∀ (s : State) (data : Bytes), exec (.crcUpdate data) s = .next { s with
    crc := data.foldl crcBitSerial s.crc, result := .ok,
    reply := some { code := .ok, value := (data.foldl crcBitSerial s.crc).setWidth 32, out := [] } }

/-- CHECKSUM (40_checksum.md R104): the result does not depend on `CRC` before the command. -/
def Obligations.ChecksumStartsFromInit : Prop :=
  ∀ (s : State) (data : Bytes),
    exec (.checksum data) s = .next { s with
      crc := data.foldl crcStep 0xFFFF#16, result := .ok,
      reply := some { code := .ok, value := (data.foldl crcStep 0xFFFF#16).setWidth 32, out := [] } } ∧
    (data = [] → data.foldl crcStep 0xFFFF#16 = 0xFFFF#16)

/-- 40_checksum.md R101: the byte step is one byte of the non-reflected bit-serial CRC with polynomial 0x1021, so the
checksum is that CRC from 0xFFFF; its check value is 0x29B1. -/
def Obligations.CrcStepIsTheBitSerialCrc : Prop :=
  (∀ (r : U16) (x : Byte), crcStep r x = crcBitSerial r x) ∧
  (∀ data : Bytes, checksum data = data.foldl crcBitSerial 0xFFFF#16) ∧
  checksum [0x31#8, 0x32#8, 0x33#8, 0x34#8, 0x35#8, 0x36#8, 0x37#8, 0x38#8, 0x39#8] = 0x29B1#16

/-- 40_checksum.md R105 and R103's corner case: CRC_INIT and then any number of CRC_UPDATEs leave in `CRC` the checksum
of all their bytes, and touch neither the send side nor the receiver. -/
def Obligations.StreamingGivesTheChecksum : Prop :=
  ∀ (s : State) (pieces : List Bytes) (rest : List HostItem), ParametersLegal s →
    (∀ d ∈ pieces, d.length ≤ maxData s.cfg) →
    s.pending = .command 0x0001#16 [] :: (pieces.map fun d => .command 0x0002#16 d) ++ rest →
    ∃ t, run (pieces.length + 1) s = .next t ∧ t.crc = checksum pieces.flatten ∧ t.seq = s.seq ∧
      t.wfail = s.wfail ∧ t.txlog = s.txlog ∧ t.rx = s.rx ∧ t.pending = rest

/-! ## Framer -/

/-- SLIP_ENCODE (41_framer.md R121), with the length of its output. -/
def Obligations.SlipEncodeOutputLength : Prop :=
  ∀ (s : State) (data : Bytes), ∃ out : Bytes,
    exec (.slipEncode data) s = .next { s with
      result := .ok, reply := some { code := .ok, value := lengthValue out.length, out := out } } ∧
    out = [s.cfg.slip.slipEnd] ++ (data.map (stuff s.cfg.slip)).flatten ++ [s.cfg.slip.slipEnd] ∧
    out.length = 2 + data.length +
      data.countP (fun b => b == s.cfg.slip.slipEnd || b == s.cfg.slip.slipEsc) ∧
    out.length ≤ 2 + 2 * data.length

/-- 41_framer.md R124: an encoded frame begins and ends with the delimiter and holds no other. Its last clause, that
every escape byte is followed by a continuation, is stated under the premise that no continuation equals the escape
byte, which R10 does not give (`EscapeClauseNeedsDistinctEscapes`). -/
def Obligations.EncodedFrameShape : Prop :=
  ∀ (p : SlipParams) (data : Bytes), slipLegal p = true →
    (∃ body, slipEncode p data = [p.slipEnd] ++ body ++ [p.slipEnd] ∧ p.slipEnd ∉ body) ∧
    (p.slipEscEnd ≠ p.slipEsc → p.slipEscEsc ≠ p.slipEsc →
      ∀ i, (slipEncode p data)[i]? = some p.slipEsc →
        (slipEncode p data)[i + 1]? = some p.slipEscEnd ∨ (slipEncode p data)[i + 1]? = some p.slipEscEsc)

/-- From 41_framer.md R120, R121 and 00_scope.md R10 (note 16): with `SLIP_ESC_END = SLIP_ESC`, which R10 allows, an
escape byte in an encoded frame can be followed by the delimiter, so the last clause of R124 can fail. -/
def Obligations.EscapeClauseNeedsDistinctEscapes : Prop :=
  ∃ (p : SlipParams) (data : Bytes) (i : Nat), slipLegal p = true ∧
    (slipEncode p data)[i]? = some p.slipEsc ∧ (slipEncode p data)[i + 1]? = some p.slipEnd

/-- 41_framer.md R126 and R125: decoding what SLIP_ENCODE returned gives the data back, under either policy, in the
function and through the block. -/
def Obligations.SlipRoundTrip : Prop :=
  (∀ (p : SlipParams) (policy : EscPolicy) (data : Bytes), slipLegal p = true →
    slipDecode p policy (slipEncode p data) = some data) ∧
  (∀ (s : State) (data : Bytes), ParametersLegal s →
    ∃ t v out u, exec (.slipEncode data) s = .next t ∧
      t.reply = some { code := .ok, value := v, out := out } ∧
      exec (.slipDecode out) t = .next u ∧
      u.reply = some { code := .ok, value := lengthValue data.length, out := data })

/-- SLIP_DECODE (41_framer.md R122, R123): strip every delimiter, then R123's loop, by index, under either policy. -/
def Obligations.SlipDecodeRunsItsLoop : Prop :=
  ∀ (s : State) (data : Bytes),
    exec (.slipDecode data) s =
      .next (match decodeLoop s.cfg.slip s.cfg.escPolicy (data.filter fun b => b != s.cfg.slip.slipEnd)
          data.length 0 [] with
        | some out => { s with
            result := .ok, reply := some { code := .ok, value := lengthValue out.length, out := out } }
        | none => { s with
            result := .decodeError, reply := some { code := .decodeError, value := 0#32, out := [] } })

/-- 41_framer.md R123: under `drop` SLIP_DECODE never fails; under either policy, data without an escape byte decodes to
itself less its delimiters. -/
def Obligations.SlipDecodeCompletes : Prop :=
  ∀ (s : State) (data : Bytes),
    (s.cfg.escPolicy = .drop → ∃ out : Bytes, exec (.slipDecode data) s = .next { s with
      result := .ok, reply := some { code := .ok, value := lengthValue out.length, out := out } }) ∧
    (s.cfg.slip.slipEsc ∉ data → exec (.slipDecode data) s = .next { s with
      result := .ok,
      reply := some { code := .ok
                      value := lengthValue (data.filter fun b => b != s.cfg.slip.slipEnd).length
                      out := data.filter fun b => b != s.cfg.slip.slipEnd } })

/-! ## Header, packets and acknowledgments -/

/-- 30_encoding.md R62, R64 and 42_packet.md R149: every field of the header, and its checksum. The places of the fields
of the first byte are the spec's own inference (R63; note 19). -/
def Obligations.HeaderLayout : Prop :=
  ∀ (seq : BitVec 3) (n : BitVec 12), ∃ b0 b1 b2 b3 : Byte, header seq n = [b0, b1, b2, b3] ∧
    b0.toNat % 8 = seq.toNat ∧ b0.toNat / 8 % 8 = (seq.toNat + 1) % 8 ∧
    b0.toNat / 64 % 2 = 1 ∧ b0.toNat / 128 = 1 ∧
    b1.toNat % 16 = 14 ∧ b1.toNat / 16 = n.toNat % 16 ∧
    b2.toNat = n.toNat / 16 ∧
    b3.toNat = (256 - (b0.toNat + b1.toNat + b2.toNat) % 256) % 256 ∧
    (b0.toNat + b1.toNat + b2.toNat + b3.toNat) % 256 = 0

/-- 30_encoding.md R65: the eight values of the first header byte, none of them a default delimiter or escape byte. -/
def Obligations.FirstHeaderByteValues : Prop :=
  ([0#3, 1#3, 2#3, 3#3, 4#3, 5#3, 6#3, 7#3].map headerByte0 =
    [0xC8#8, 0xD1#8, 0xDA#8, 0xE3#8, 0xEC#8, 0xF5#8, 0xFE#8, 0xC7#8]) ∧
  ∀ seq : BitVec 3, headerByte0 seq ≠ SlipParams.default.slipEnd ∧ headerByte0 seq ≠ SlipParams.default.slipEsc

/-- PACK_HEADER (42_packet.md R142): the header of `SQ` and `n`, and its bytes as one number; `PAYLOAD_TOO_LONG` above
4095. -/
def Obligations.PackHeaderReturnsTheHeader : Prop :=
  ∀ (s : State) (sq : BitVec 3) (n : U16),
    (n.toNat ≤ 4095 → ∃ b0 b1 b2 b3 : Byte, ∃ v : U32,
      header sq (BitVec.ofNat 12 n.toNat) = [b0, b1, b2, b3] ∧
      v.toNat = b0.toNat + 256 * b1.toNat + 65536 * b2.toNat + 16777216 * b3.toNat ∧
      exec (.packHeader sq n) s = .next { s with
        result := .ok, reply := some { code := .ok, value := v, out := [b0, b1, b2, b3] } }) ∧
    (4095 < n.toNat → exec (.packHeader sq n) s = .next { s with
      result := .payloadTooLong, reply := some { code := .payloadTooLong, value := 0#32, out := [] } })

/-- BUILD_PACKET (42_packet.md R144, R145, R143): the framed header, payload and checksum trailer, and its length;
`PAYLOAD_TOO_LONG` above 4095 bytes. -/
def Obligations.BuildPacketReturnsTheFrame : Prop :=
  ∀ (s : State) (sq : BitVec 3) (payload : Bytes),
    (payload.length ≤ 4095 → ∃ frame body : Bytes,
      body = header sq (BitVec.ofNat 12 payload.length) ++ payload ∧
      frame = slipEncode s.cfg.slip
        (body ++ [(checksum body).extractLsb' 0 8, (checksum body).extractLsb' 8 8]) ∧
      frame.length ≤ 8204 ∧
      exec (.buildPacket sq payload) s = .next { s with
        result := .ok, reply := some { code := .ok, value := BitVec.ofNat 32 frame.length, out := frame } }) ∧
    (4095 < payload.length → exec (.buildPacket sq payload) s = .next { s with
      result := .payloadTooLong, reply := some { code := .payloadTooLong, value := 0#32, out := [] } })

/-- 42_packet.md R147: a built frame begins and ends with the delimiter, and its decoded body is the header, the payload
unchanged (R141) and two bytes more. -/
def Obligations.BuiltFrameDecodesToTheRawPacket : Prop :=
  ∀ (p : SlipParams) (policy : EscPolicy) (seq : BitVec 3) (payload : Bytes),
    slipLegal p = true → payload.length ≤ 4095 →
    (packet p seq payload).head? = some p.slipEnd ∧ (packet p seq payload).getLast? = some p.slipEnd ∧
    ∃ body, slipDecode p policy (packet p seq payload) = some body ∧
      body.length = 4 + payload.length + 2 ∧
      body.take 4 = header seq (BitVec.ofNat 12 payload.length) ∧
      (body.drop 4).take payload.length = payload ∧
      body.drop (4 + payload.length) = le16 (checksum (body.take (4 + payload.length)))

/-- PARSE_ACK (42_packet.md R146): bits 5..3 of the first byte of a body of at least four, else `MALFORMED_ACK`. -/
def Obligations.ParseAckReadsTheAckField : Prop :=
  ∀ (s : State) (body : Bytes),
    (body.length < 4 → exec (.parseAck body) s = .next { s with
      result := .malformedAck, reply := some { code := .malformedAck, value := 0#32, out := [] } }) ∧
    (4 ≤ body.length → exec (.parseAck body) s = .next { s with
      result := .ok
      reply := some { code := .ok, value := BitVec.ofNat 32 ((body.headD 0#8).toNat / 8 % 8), out := [] } })

/-- 42_packet.md R148: BUILD_PACKET, SLIP_DECODE of its output and PARSE_ACK of that body, through the block, return the
sequence number plus one, modulo 8. -/
def Obligations.OwnPacketParsesToItsAck : Prop :=
  ∀ (s : State) (sq : BitVec 3) (payload : Bytes), ParametersLegal s → payload.length ≤ 4095 →
    ∃ t u v frame body n m,
      exec (.buildPacket sq payload) s = .next t ∧
      t.reply = some { code := .ok, value := n, out := frame } ∧
      exec (.slipDecode frame) t = .next u ∧
      u.reply = some { code := .ok, value := m, out := body } ∧
      exec (.parseAck body) u = .next v ∧
      v.reply = some { code := .ok, value := BitVec.ofNat 32 ((sq.toNat + 1) % 8), out := [] }

/-! ## Transport and send -/

/-- TX_WRITE follows its write draw (43_transport.md R160, R161). -/
def Obligations.TxWriteFollowsTheDraw : Prop :=
  ∀ (s : State) (data : Bytes) (ws : List WriteDraw), s.wfail = false →
    (s.link.writes = .ok :: ws → exec (.txWrite data) s = .next { s with
      txlog := s.txlog ++ data, link := { s.link with writes := ws }, result := .ok,
      reply := some { code := .ok, value := lengthValue data.length, out := [] } }) ∧
    (∀ k, k ≤ data.length → s.link.writes = .ioError k :: ws → exec (.txWrite data) s = .next { s with
      txlog := s.txlog ++ data.take k, link := { s.link with writes := ws }, wfail := true,
      result := .writeFailure, reply := some { code := .writeFailure, value := 0#32, out := [] } })

/-- TX_WRITE completes in every state whose session has not failed, one of R161's two ways, whatever the environment
does. -/
def Obligations.TxWriteCompletes : Prop :=
  ∀ (s : State) (data : Bytes), s.wfail = false → ∃ l : Link,
    exec (.txWrite data) s = .next { s with
      txlog := s.txlog ++ data, link := l, result := .ok,
      reply := some { code := .ok, value := lengthValue data.length, out := [] } } ∨
    ∃ k, k ≤ data.length ∧ exec (.txWrite data) s = .next { s with
      txlog := s.txlog ++ data.take k, link := l, wfail := true,
      result := .writeFailure, reply := some { code := .writeFailure, value := 0#32, out := [] } }

/-- 43_transport.md R164: the receiver completes `f` from the peer's bytes exactly when they are bytes without a
delimiter, one or more delimiters, a non-empty body without a delimiter, the closing delimiter and anything after
it, and `f` is that body between delimiters. -/
def Obligations.ReceiverReturnsTheFirstFrame : Prop :=
  ∀ (d : Byte) (bytes f : Bytes),
    receive d Rx.idle bytes = some f ↔
      ∃ (before body after : Bytes) (n : Nat), d ∉ before ∧ d ∉ body ∧ body ≠ [] ∧
        bytes = before ++ List.replicate (n + 1) d ++ body ++ [d] ++ after ∧ f = [d] ++ body ++ [d]

/-- RX_READ_FRAME follows its read draw (43_transport.md R163, R165), for every timeout value. -/
def Obligations.RxReadFrameFollowsTheDraw : Prop :=
  ∀ (s : State) (t : U32) (r : ReadDraw) (rs : List ReadDraw), s.link.reads = r :: rs →
    (∀ f, receive s.cfg.slip.slipEnd Rx.idle r.bytes = some f →
      exec (.rxReadFrame t) s = .next { s with
        rx := Rx.idle, link := { s.link with reads := rs }, result := .ok,
        reply := some { code := .ok, value := lengthValue f.length, out := f } }) ∧
    (receive s.cfg.slip.slipEnd Rx.idle r.bytes = none → r.ending = .timeout →
      exec (.rxReadFrame t) s = .next { s with
        rx := Rx.idle, link := { s.link with reads := rs }, result := .readTimeout,
        reply := some { code := .readTimeout, value := 0#32, out := [] } }) ∧
    (receive s.cfg.slip.slipEnd Rx.idle r.bytes = none → r.ending = .ioError →
      exec (.rxReadFrame t) s = .next { s with
        rx := Rx.idle, link := { s.link with reads := rs }, result := .readIoError,
        reply := some { code := .readIoError, value := 0#32, out := [] } })

/-- 43_transport.md R164 and R165: whatever the environment does, RX_READ_FRAME completes with a frame of at least three
bytes between two delimiters with no other inside, or with `READ_TIMEOUT`, or with `READ_IO_ERROR`; and neither an
old receiver state nor the timeout value changes the outcome (70_reset_and_hazards.md R294). -/
def Obligations.ReadFrameOutcomes : Prop :=
  ∀ (s : State) (t : U32), ∃ l : Link,
    ((∃ body : Bytes, body ≠ [] ∧ s.cfg.slip.slipEnd ∉ body ∧
        exec (.rxReadFrame t) s = .next { s with
          rx := Rx.idle, link := l, result := .ok,
          reply := some { code := .ok, value := lengthValue (body.length + 2),
                          out := [s.cfg.slip.slipEnd] ++ body ++ [s.cfg.slip.slipEnd] } }) ∨
      exec (.rxReadFrame t) s = .next { s with
        rx := Rx.idle, link := l, result := .readTimeout,
        reply := some { code := .readTimeout, value := 0#32, out := [] } } ∨
      exec (.rxReadFrame t) s = .next { s with
        rx := Rx.idle, link := l, result := .readIoError,
        reply := some { code := .readIoError, value := 0#32, out := [] } }) ∧
    ∀ (old : Rx) (t' : U32), exec (.rxReadFrame t') { s with rx := old } = exec (.rxReadFrame t) s

/-- SEND_PACKET (43_transport.md R170 to R173) with its draws fixed, and the DFU payloads sent through it (note 6): the
pre-incremented number in the packet, the whole frame on the wire, `SEQ` kept by any frame read and reset by a
timeout or a read error; and with a failed write the drawn prefix, `SEQ` kept, `WFAIL` set and no read. -/
def Obligations.SendPacketFollowsItsSteps : Prop :=
  ∀ (s : State) (i : Instr) (payload : Bytes) (ws : List WriteDraw),
    sendsPayload i = some payload → s.wfail = false → payload.length ≤ 4095 →
    (∀ (r : ReadDraw) (rs : List ReadDraw), s.link.writes = .ok :: ws → s.link.reads = r :: rs →
      exec i s = .next { s with
        seq := if (receive s.cfg.slip.slipEnd Rx.idle r.bytes).isSome then s.seq + 1#3 else 0#3,
        txlog := s.txlog ++ packet s.cfg.slip (s.seq + 1#3) payload,
        rx := Rx.idle, link := { s.link with writes := ws, reads := rs }, result := .ok,
        reply := some { code := .ok, value := 0#32, out := [] } }) ∧
    (∀ k, k ≤ (packet s.cfg.slip (s.seq + 1#3) payload).length → s.link.writes = .ioError k :: ws →
      exec i s = .next { s with
        seq := s.seq + 1#3, wfail := true,
        txlog := s.txlog ++ (packet s.cfg.slip (s.seq + 1#3) payload).take k,
        link := { s.link with writes := ws }, result := .writeFailure,
        reply := some { code := .writeFailure, value := 0#32, out := [] } })

/-- 60_exceptions.md R242 step 3 and R244: a payload over 4095 bytes is refused before `SEQ` moves; and no read error,
decode error or malformed acknowledgment is ever returned by a send; a write failure leaves a prefix of the packet,
whatever the environment does. The DFU payloads are sends by note 6. -/
def Obligations.SendPacketErrors : Prop :=
  ∀ (s : State) (i : Instr) (payload : Bytes), sendsPayload i = some payload →
    (s.wfail = false → 4095 < payload.length → exec i s = .next { s with
      result := .payloadTooLong, reply := some { code := .payloadTooLong, value := 0#32, out := [] } }) ∧
    (s.wfail = false → payload.length ≤ 4095 → ∃ t r, exec i s = .next t ∧ t.reply = some r ∧ t.result = r.code ∧
      (r.code = .ok ∧ (t.seq = s.seq + 1#3 ∨ t.seq = 0#3) ∧
          t.txlog = s.txlog ++ packet s.cfg.slip (s.seq + 1#3) payload ∨
        r.code = .writeFailure ∧ t.wfail = true ∧ t.seq = s.seq + 1#3 ∧
          ∃ k, k ≤ (packet s.cfg.slip (s.seq + 1#3) payload).length ∧
            t.txlog = s.txlog ++ (packet s.cfg.slip (s.seq + 1#3) payload).take k))

/-- The four DFU opcodes of 30_encoding.md R74 written by the host step exactly as the SEND_PACKET of the same payload:
the model's reading of those rows (note 6). -/
def Obligations.DfuPayloadStepsAsSendPacket : Prop :=
  ∀ (s : State) (o : DfuOp) (more : Bytes) (rest : List HostItem),
    step { s with pending := .payload (le32 (dfuCode o) ++ more) :: rest } =
      step { s with pending := .command 0x0040#16 (le32 (dfuCode o) ++ more) :: rest }

/-- 43_transport.md R176: from `SEQ` 0, `n` SEND_PACKETs whose writes succeed and whose reads return frames leave
`SEQ = n mod 8`, and put on the wire the packets numbered 1 to `n` modulo 8, in order; and after any send whose read
times out or fails, `SEQ` is 0 whatever it was. -/
def Obligations.SequenceCounterLaw : Prop :=
  (∀ (s : State) (payloads : List Bytes) (rest : List HostItem) (ws : List WriteDraw) (rds rs : List ReadDraw),
    ParametersLegal s → s.seq = 0#3 → s.wfail = false →
    (∀ p ∈ payloads, p.length ≤ 4095) →
    s.pending = (payloads.map fun p => .command 0x0040#16 p) ++ rest →
    s.link.writes = List.replicate payloads.length .ok ++ ws →
    s.link.reads = rds ++ rs → rds.length = payloads.length →
    (∀ d ∈ rds, (receive s.cfg.slip.slipEnd Rx.idle d.bytes).isSome = true) →
    ∃ t, run payloads.length s = .next t ∧ t.seq.toNat = payloads.length % 8 ∧ t.wfail = false ∧
      t.txlog = s.txlog ++
        (payloads.zipIdx 1).flatMap (fun pk => packet s.cfg.slip (BitVec.ofNat 3 pk.2) pk.1) ∧
      t.crc = s.crc ∧ t.pending = rest) ∧
  (∀ (s : State) (payload : Bytes) (ws : List WriteDraw) (r : ReadDraw) (rs : List ReadDraw),
    s.wfail = false → payload.length ≤ 4095 → s.link.writes = .ok :: ws → s.link.reads = r :: rs →
    receive s.cfg.slip.slipEnd Rx.idle r.bytes = none →
    ∃ t, exec (.sendPacket payload) s = .next t ∧ t.seq = 0#3)

/-! ## Housekeeping -/

/-- STATUS_READ (43_transport.md R180) returns the view of 10_state.md R29 and writes nothing. -/
def Obligations.StatusReadReturnsTheView : Prop :=
  ∀ s : State, ∃ v : U32,
    exec .statusRead s = .next { s with reply := some { code := .ok, value := v, out := [] } } ∧
    v.toNat = s.seq.toNat + 8 * s.wfail.toNat + 16 * (codeBits s.result).toNat + 65536 * s.crc.toNat ∧
    v.extractLsb' 0 3 = s.seq ∧ v.getLsbD 3 = s.wfail ∧ v.extractLsb' 4 4 = codeBits s.result ∧
    v.extractLsb' 8 8 = 0#8 ∧ v.extractLsb' 16 16 = s.crc

/-- SESSION_RESET (43_transport.md R181). -/
def Obligations.SessionResetKeepsTheWireHistory : Prop :=
  ∀ s : State, exec .sessionReset s = .next { s with
    crc := 0xFFFF#16, seq := 0#3, wfail := false, rx := Rx.idle, result := .ok,
    reply := some { code := .ok, value := 0#32, out := [] } }

/-! ## The host's protocol -/

/-- 48_host_protocol.md R203 and R213: the chunks are the image in order, all of 512 bytes but the last, and every Data
payload has at most 516 bytes. -/
def Obligations.ChunksRebuildTheImage : Prop :=
  ∀ image : Bytes,
    (List.range (chunkCount image.length)).flatMap (chunk image) = image ∧
    (image.length ≤ 512 * chunkCount image.length ∧ 512 * chunkCount image.length < image.length + 512) ∧
    (∀ j, j + 1 < chunkCount image.length → (chunk image j).length = 512) ∧
    (∀ j, j + 1 = chunkCount image.length →
      (chunk image j).length = image.length - 512 * (chunkCount image.length - 1)) ∧
    ∀ j, (dataPayload image j).length ≤ 516

/-- 48_host_protocol.md R205: a whole transfer with every write succeeding and every read before the last returning a
frame puts the Start, Init, Data and Stop packets on the wire in order, numbered 1, 2, 3, ... modulo 8; the session
does not fail, and a timeout after Stop only resets `SEQ` (43_transport.md R175). -/
def Obligations.TransferSendsEveryPacketInOrder : Prop :=
  ∀ (s : State) (image blob : Bytes) (rest : List HostItem) (ws : List WriteDraw) (rds rs : List ReadDraw)
    (last : ReadDraw),
    ParametersLegal s → transferable image blob = true →
    s.pending = transferProgram image blob ++ rest →
    s.link.writes = List.replicate (chunkCount image.length + 3) .ok ++ ws →
    s.link.reads = rds ++ last :: rs → rds.length = chunkCount image.length + 2 →
    (∀ d ∈ rds, (receive s.cfg.slip.slipEnd Rx.idle d.bytes).isSome = true) →
    ∃ t, run (transferProgram image blob).length s = .next t ∧ t.pending = rest ∧ t.wfail = false ∧
      t.txlog = s.txlog ++ packet s.cfg.slip 1#3 (startPayload image.length) ++
        packet s.cfg.slip 2#3 (initPayload blob) ++
        (List.range (chunkCount image.length)).flatMap
          (fun j => packet s.cfg.slip (BitVec.ofNat 3 (j + 3)) (dataPayload image j)) ++
        packet s.cfg.slip (BitVec.ofNat 3 (chunkCount image.length + 3)) stopPayload ∧
      t.seq = (if (receive s.cfg.slip.slipEnd Rx.idle last.bytes).isSome
        then BitVec.ofNat 3 (chunkCount image.length + 3) else 0#3)

/-- 48_host_protocol.md R200, R202 and R201: the lengths of the Start and Init payloads, both within 4095 bytes for a
transferable pair; and the erase wait, 90 for each page begun but never under 1000. -/
def Obligations.HostPayloadLengths : Prop :=
  ∀ image blob : Bytes, transferable image blob = true →
    (startPayload image.length).length = 20 ∧ (initPayload blob).length = 4 + blob.length + 2 ∧
    (initPayload blob).length ≤ 4095 ∧ stopPayload = [5#8, 0#8, 0#8, 0#8] ∧
    1000 ≤ eraseMs image.length ∧ (∀ pages, 4096 * pages < image.length → (pages + 1) * 90 ≤ eraseMs image.length) ∧
    (∀ pages, image.length ≤ 4096 * pages → eraseMs image.length ≤ max (pages * 90) 1000)

/-- 48_host_protocol.md R211: the reported progress is 0, 2, 5, then in the data phase `8 + round((k / N) * 82)` for `k`
from 0 to `N`, halves rounded up (nothing for an empty image), then 95, 100; and it never falls. -/
def Obligations.ProgressNeverFalls : Prop :=
  ∀ len : Nat, List.Pairwise (· ≤ ·) (progressValues len) ∧
    ∃ ramp : List Nat, progressValues len = [0, 2, 5] ++ ramp ++ [95, 100] ∧
      (chunkCount len = 0 → ramp = []) ∧
      (0 < chunkCount len → ramp.length = chunkCount len + 1 ∧
        ∀ k v, ramp[k]? = some v → ∃ q, v = 8 + q ∧
          2 * chunkCount len * q ≤ 2 * 82 * k + chunkCount len ∧
          2 * 82 * k + chunkCount len < 2 * chunkCount len * q + 2 * chunkCount len)

/-- 30_encoding.md R75: the written form of a command assembles to its command word and data. -/
def Obligations.WrittenCommandAssembles : Prop :=
  ∀ (o : Op) (sq : BitVec 3) (data : Bytes), (usesSq o = false → sq = 0#3) →
    assembleLine (writeLine o sq data) = some (.command (commandWord o sq) data)

/-- 48_host_protocol.md R205, R206 and R213: a transfer's program has one Data send for each chunk and three sends more,
and one page-write delay for each whole group of eight chunks that is not the last chunk's; which chunks those are. -/
def Obligations.PageDelaysFollowEveryEighthChunk : Prop :=
  ∀ image blob : Bytes,
    (transferProgram image blob).count (.wait 100) = (chunkCount image.length - 1) / 8 ∧
    (transferProgram image blob).countP isSend = chunkCount image.length + 3 ∧
    ∀ j, chunkItems image (chunkCount image.length) j =
      [.command 0x0040#16 (dataPayload image j)] ++
        (if (j + 1) % 8 = 0 ∧ j + 1 ≠ chunkCount image.length then [.wait 100] else [])

/-- 30_encoding.md R76: what the three pseudo-commands expand to, whatever follows them on the line, and that a line that
assembles begins with a command or one of the three. That FRAME is also read without its `seq=` operand is the model's
choice (note 23). -/
def Obligations.PseudoCommandsExpand : Prop :=
  (∀ tail : List Char, assembleLine (pseudoName .checksumOf ++ ' ' :: tail) =
    assembleLine (opName .checksum ++ ' ' :: tail)) ∧
  (∀ tail : List Char, assembleLine (pseudoName .frame ++ ' ' :: tail) =
    assembleLine (opName .buildPacket ++ ' ' :: tail)) ∧
  assembleLine (pseudoName .readAck) =
    assembleLine (opName .rxReadFrame ++ [' ', 'e', '8', '0', '3', '0', '0', '0', '0']) ∧
  assembleLine (pseudoName .readAck) = some (.command 0x0031#16 [0xE8#8, 0x03#8, 0x00#8, 0x00#8]) ∧
  ∀ (line : List Char) (h : HostItem), assembleLine line = some h →
    ∃ name words, wordsFrom [] line = name :: words ∧ ((∃ o, name = opName o) ∨ ∃ p, name = pseudoName p)

/-- 48_host_protocol.md R200, R202, R203 and R204: every byte of the four payloads. The Start payload is opcode 3, mode 4,
two sizes 0 and the length, each in four bytes, least significant first. -/
def Obligations.HostPayloadContents : Prop :=
  ∀ image blob : Bytes, transferable image blob = true →
    (∃ l0 l1 l2 l3 : Byte,
      startPayload image.length =
        [3#8, 0#8, 0#8, 0#8, 4#8, 0#8, 0#8, 0#8, 0#8, 0#8, 0#8, 0#8, 0#8, 0#8, 0#8, 0#8, l0, l1, l2, l3] ∧
      l0.toNat + 256 * l1.toNat + 65536 * l2.toNat + 16777216 * l3.toNat = image.length) ∧
    initPayload blob = [1#8, 0#8, 0#8, 0#8] ++ blob ++ [0#8, 0#8] ∧
    (∀ j, dataPayload image j = [4#8, 0#8, 0#8, 0#8] ++ (image.drop (512 * j)).take 512) ∧
    stopPayload = [5#8, 0#8, 0#8, 0#8]

/-- 48_host_protocol.md R207, with 43_transport.md R177: a transfer whose write fails at the Data send of chunk `j`, the
writes before it drawn ok and the reads before it returning frames, ends `failed` with `j` recorded (the index as R203
counts, note 22), the packets before it whole and a prefix of its own on the wire, and nothing sent after; one that
fails at the Start send, the Init send or the Stop send records no chunk. -/
def Obligations.FailingChunkIsRecorded : Prop :=
  ∀ (s : State) (image blob : Bytes) (n k : Nat) (ws : List WriteDraw) (rds rs : List ReadDraw),
    ParametersLegal s → transferable image blob = true → n < chunkCount image.length + 3 →
    s.link.writes = List.replicate n .ok ++ .ioError k :: ws → s.link.reads = rds ++ rs → rds.length = n →
    (∀ d ∈ rds, (receive s.cfg.slip.slipEnd Rx.idle d.bytes).isSome = true) →
    ∃ t, conductTransfer (transferPlan image blob) HostRecord.start s =
        .next ({ phase := .failed
                 failedChunk := if 2 ≤ n ∧ n < chunkCount image.length + 2 then some (n - 2) else none }, t) ∧
      t.wfail = true ∧ t.result = .writeFailure ∧ t.seq = BitVec.ofNat 3 (n + 1) ∧ t.pending = [] ∧
      t.txlog = s.txlog ++
        (((transferPayloads image blob).take n).zipIdx 1).flatMap
          (fun pk => packet s.cfg.slip (BitVec.ofNat 3 pk.2) pk.1) ++
        (packet s.cfg.slip (BitVec.ofNat 3 (n + 1)) ((transferPayloads image blob).getD n [])).take k

/-- 48_host_protocol.md R205, R207 and R208: a transfer none of whose writes fails is carried out to its end, `complete`,
with no chunk recorded, whatever its reads return; and it has done to the block what the program of R205 does when
it stands pending. -/
def Obligations.UnfailedTransferCompletes : Prop :=
  ∀ (s : State) (image blob : Bytes) (ws : List WriteDraw), ParametersLegal s → transferable image blob = true →
    s.pending = [] → s.link.writes = List.replicate (chunkCount image.length + 3) .ok ++ ws →
    ∃ t, conductTransfer (transferPlan image blob) HostRecord.start s =
        .next ({ phase := .complete, failedChunk := none }, t) ∧
      run (transferProgram image blob).length { s with pending := transferProgram image blob } = .next t ∧
      t.wfail = false ∧ t.link.writes = ws
end

