-- ==== Sys2Proof/Laws/Decode.lean ====
section
/-! SUPPORT. The small lemmas of the operands and the decoder's tables (spec/30_encoding.md R67, R70, R74). -/

namespace Sys2Proof.Laws

open Sys2Proof.Machine

/-- `le16` and its reading back. -/
theorem ofLe16_le16 (v : U16) : le16 v = [v.extractLsb' 0 8, v.extractLsb' 8 8] ∧
    ofLe16 (v.extractLsb' 0 8) (v.extractLsb' 8 8) = v := by
  refine ⟨rfl, ?_⟩
  apply BitVec.eq_of_getLsbD_eq
  intro i hi
  simp only [ofLe16, BitVec.getLsbD_append, BitVec.getLsbD_extractLsb']
  split <;> rename_i h
  · simp [h]
  · have h8 : i - 8 < 8 := by omega
    have h9 : 8 + (i - 8) = i := by omega
    simp [h8, h9]

/-- The limit check is the comparison that R69 states, whenever the limit is a `MAX_DATA`. -/
theorem overLimit_maxData (p : Params) (n : Nat) : overLimit (maxData p) n = decide (maxData p < n) := by
  unfold overLimit maxData minMaxData
  by_cases h : p.maxDataExtra + 8204 < n
  · have : 8204 < n := by omega
    simp [h, this]
  · simp [h]

/-- Every assigned `OP` value stands for its command. -/
theorem opOfCode_opCode (o : Op) : opOfCode (opCode o) = some o := by
  cases o <;> decide

/-- A command is only ever found under its own `OP` value. -/
theorem opCode_of_opOfCode (c : Byte) (o : Op) (h : opOfCode c = some o) : opCode o = c := by
  have := List.find?_some h
  simpa using this

/-- Every DFU opcode stands for itself. -/
theorem dfuOfCode_dfuCode (o : DfuOp) : dfuOfCode (dfuCode o) = some o := by
  cases o <;> decide

/-- A DFU opcode is only ever found under its own number. -/
theorem dfuCode_of_dfuOfCode (c : U32) (o : DfuOp) (h : dfuOfCode c = some o) : dfuCode o = c := by
  have := List.find?_some h
  simpa using this

/-- A limit check passed at the least `MAX_DATA` is passed at every one. -/
theorem overLimit_least (p : Params) (n : Nat) (h : overLimit minMaxData n = false) :
    overLimit (maxData p) n = false := by
  have h' : ¬ minMaxData < n := by simpa [overLimit] using h
  simp [overLimit, h']

/-- What the decoder reads with the least `MAX_DATA` it reads with every one (`decodeTableWord`). -/
theorem decode_least_limit (p : Params) (h : HostItem) (i : Instr) (hd : decode minMaxData h = .ok i) :
    decode (maxData p) h = .ok i := by
  cases h with
  | wait ms => cases hd
  | hardwareReset => cases hd
  | payload bytes =>
    simp only [decode, decodePayload] at hd ⊢
    split at hd
    · split at hd
      · cases hd
      · split at hd
        · cases hd
        · rename_i hl
          rw [Bool.not_eq_true] at hl
          simp_all [overLimit_least p _ hl]
    · cases hd
  | command w data =>
    simp only [decode, decodeCommand] at hd ⊢
    split at hd
    · cases hd
    · split at hd
      · cases hd
      · split at hd
        · cases hd
        · split at hd
          · cases hd
          · rename_i hl
            rw [Bool.not_eq_true] at hl
            simp_all [overLimit_least p _ hl]

/-- The fields of a command word the encoder writes (30_encoding.md R66): `OP`. -/
@[simp] theorem opField_commandWord (o : Op) (sq : BitVec 3) : opField (commandWord o sq) = opCode o := by
  revert sq; cases o <;> decide

/-- `SQ` of a command word the encoder writes. -/
@[simp] theorem sqField_commandWord (o : Op) (sq : BitVec 3) : sqField (commandWord o sq) = sq := by
  revert sq; cases o <;> decide

/-- The reserved field of a command word the encoder writes. -/
@[simp] theorem reservedField_commandWord (o : Op) (sq : BitVec 3) :
    reservedField (commandWord o sq) = 0#5 := by
  revert sq; cases o <;> decide

/-- `OP` as a number. -/
theorem opField_toNat (w : U16) : (opField w).toNat = w.toNat % 256 := by
  simp [opField, BitVec.extractLsb'_toNat]

/-- `SQ` as a number. -/
theorem sqField_toNat (w : U16) : (sqField w).toNat = w.toNat / 256 % 8 := by
  simp [sqField, BitVec.extractLsb'_toNat, Nat.shiftRight_eq_div_pow]

/-- The reserved field as a number. -/
theorem reservedField_toNat (w : U16) : (reservedField w).toNat = w.toNat / 2048 := by
  have := w.isLt
  simp [reservedField, BitVec.extractLsb'_toNat, Nat.shiftRight_eq_div_pow]
  omega

/-- Reading back what `le32` writes. -/
theorem ofLe32_le32 (v : U32) :
    ofLe32 (v.extractLsb' 0 8) (v.extractLsb' 8 8) (v.extractLsb' 16 8) (v.extractLsb' 24 8) = v := by
  apply BitVec.eq_of_getLsbD_eq
  intro i hi
  simp only [ofLe32, BitVec.getLsbD_append, BitVec.getLsbD_extractLsb']
  split_ifs with h1 h2 h3
  · simp [h1]
  · have : 8 + (i - 8) = i := by omega
    simp [h2, this]
  · have : 16 + (i - 8 - 8) = i := by omega
    simp [h3, this]
  · have : 24 + (i - 8 - 8 - 8) = i := by omega
    have h4 : i - 8 - 8 - 8 < 8 := by omega
    simp [h4, this]

/-- The number a little-endian quadruple stands for (30_encoding.md R70). -/
theorem ofLe32_toNat (a b c d : Byte) :
    (ofLe32 a b c d).toNat = a.toNat + 256 * b.toNat + 65536 * c.toNat + 16777216 * d.toNat := by
  have ha := a.isLt
  have hb := b.isLt
  have hc := c.isLt
  simp only [ofLe32, BitVec.toNat_append]
  rw [← Nat.shiftLeft_add_eq_or_of_lt hc, ← Nat.shiftLeft_add_eq_or_of_lt hb,
    ← Nat.shiftLeft_add_eq_or_of_lt ha]
  simp only [Nat.shiftLeft_eq]
  omega

end Sys2Proof.Laws
end

