-- ==== Sys2Proof/Laws/State.lean ====
section
/-! SUPPORT. What each shared update of the state leaves in each field: true by unfolding, so that no later proof
unfolds a record update. -/

namespace Sys2Proof.Laws

open Sys2Proof.Machine

variable (code : ResultCode) (value : U32) (out : Bytes) (r : U16) (s : State)

/-! ## complete -/

@[simp] theorem complete_crc : (complete code value out s).crc = s.crc := rfl

@[simp] theorem complete_seq : (complete code value out s).seq = s.seq := rfl

@[simp] theorem complete_wfail : (complete code value out s).wfail = s.wfail := rfl

@[simp] theorem complete_result : (complete code value out s).result = code := rfl

@[simp] theorem complete_rx : (complete code value out s).rx = s.rx := rfl

@[simp] theorem complete_txlog : (complete code value out s).txlog = s.txlog := rfl

@[simp] theorem complete_reply : (complete code value out s).reply = some { code := code, value := value, out := out } := rfl

@[simp] theorem complete_cfg : (complete code value out s).cfg = s.cfg := rfl

@[simp] theorem complete_pending : (complete code value out s).pending = s.pending := rfl

@[simp] theorem complete_link : (complete code value out s).link = s.link := rfl

/-! ## raiseError -/

@[simp] theorem raiseError_crc : (raiseError code s).crc = s.crc := rfl

@[simp] theorem raiseError_seq : (raiseError code s).seq = s.seq := rfl

@[simp] theorem raiseError_wfail : (raiseError code s).wfail = s.wfail := rfl

@[simp] theorem raiseError_result : (raiseError code s).result = code := rfl

@[simp] theorem raiseError_rx : (raiseError code s).rx = s.rx := rfl

@[simp] theorem raiseError_txlog : (raiseError code s).txlog = s.txlog := rfl

@[simp] theorem raiseError_reply : (raiseError code s).reply = some { code := code, value := 0#32, out := [] } := rfl

@[simp] theorem raiseError_cfg : (raiseError code s).cfg = s.cfg := rfl

@[simp] theorem raiseError_pending : (raiseError code s).pending = s.pending := rfl

@[simp] theorem raiseError_link : (raiseError code s).link = s.link := rfl

/-! ## completeCrc -/

@[simp] theorem completeCrc_crc : (completeCrc r s).crc = r := rfl

@[simp] theorem completeCrc_seq : (completeCrc r s).seq = s.seq := rfl

@[simp] theorem completeCrc_wfail : (completeCrc r s).wfail = s.wfail := rfl

@[simp] theorem completeCrc_result : (completeCrc r s).result = .ok := rfl

@[simp] theorem completeCrc_rx : (completeCrc r s).rx = s.rx := rfl

@[simp] theorem completeCrc_txlog : (completeCrc r s).txlog = s.txlog := rfl

@[simp] theorem completeCrc_reply : (completeCrc r s).reply = some { code := .ok, value := r.setWidth 32, out := [] } := rfl

@[simp] theorem completeCrc_cfg : (completeCrc r s).cfg = s.cfg := rfl

@[simp] theorem completeCrc_pending : (completeCrc r s).pending = s.pending := rfl

@[simp] theorem completeCrc_link : (completeCrc r s).link = s.link := rfl

/-! ## completeBytes -/

@[simp] theorem completeBytes_crc : (completeBytes out s).crc = s.crc := rfl

@[simp] theorem completeBytes_seq : (completeBytes out s).seq = s.seq := rfl

@[simp] theorem completeBytes_wfail : (completeBytes out s).wfail = s.wfail := rfl

@[simp] theorem completeBytes_result : (completeBytes out s).result = .ok := rfl

@[simp] theorem completeBytes_rx : (completeBytes out s).rx = s.rx := rfl

@[simp] theorem completeBytes_txlog : (completeBytes out s).txlog = s.txlog := rfl

@[simp] theorem completeBytes_reply : (completeBytes out s).reply = some { code := .ok, value := lengthValue out.length, out := out } := rfl

@[simp] theorem completeBytes_cfg : (completeBytes out s).cfg = s.cfg := rfl

@[simp] theorem completeBytes_pending : (completeBytes out s).pending = s.pending := rfl

@[simp] theorem completeBytes_link : (completeBytes out s).link = s.link := rfl

/-! ## resetRegisters -/

@[simp] theorem resetRegisters_crc : (resetRegisters s).crc = ckInit := rfl

@[simp] theorem resetRegisters_seq : (resetRegisters s).seq = 0#3 := rfl

@[simp] theorem resetRegisters_wfail : (resetRegisters s).wfail = false := rfl

@[simp] theorem resetRegisters_result : (resetRegisters s).result = s.result := rfl

@[simp] theorem resetRegisters_rx : (resetRegisters s).rx = Rx.idle := rfl

@[simp] theorem resetRegisters_txlog : (resetRegisters s).txlog = s.txlog := rfl

@[simp] theorem resetRegisters_reply : (resetRegisters s).reply = s.reply := rfl

@[simp] theorem resetRegisters_cfg : (resetRegisters s).cfg = s.cfg := rfl

@[simp] theorem resetRegisters_pending : (resetRegisters s).pending = s.pending := rfl

@[simp] theorem resetRegisters_link : (resetRegisters s).link = s.link := rfl

/-! ## hardwareReset -/

@[simp] theorem hardwareReset_crc : (hardwareReset s).crc = ckInit := rfl

@[simp] theorem hardwareReset_seq : (hardwareReset s).seq = 0#3 := rfl

@[simp] theorem hardwareReset_wfail : (hardwareReset s).wfail = false := rfl

@[simp] theorem hardwareReset_result : (hardwareReset s).result = .ok := rfl

@[simp] theorem hardwareReset_rx : (hardwareReset s).rx = Rx.idle := rfl

@[simp] theorem hardwareReset_txlog : (hardwareReset s).txlog = s.txlog := rfl

@[simp] theorem hardwareReset_reply : (hardwareReset s).reply = none := rfl

@[simp] theorem hardwareReset_cfg : (hardwareReset s).cfg = s.cfg := rfl

@[simp] theorem hardwareReset_pending : (hardwareReset s).pending = s.pending := rfl

@[simp] theorem hardwareReset_link : (hardwareReset s).link = s.link := rfl

end Sys2Proof.Laws
end

