-- ==== Sys2Proof/Laws/Transport.lean ====
section
/-! SUPPORT. Everything the draws and the transport primitives can do, said once (spec/43_transport.md R160, R163). -/

namespace Sys2Proof.Laws

open Sys2Proof.Machine

/-- A write draw touches nothing but the environment. -/
theorem drawWrite_spec (s : State) : ∃ d l, drawWrite s = (d, { s with link := l }) := by
  unfold drawWrite
  split <;> exact ⟨_, _, rfl⟩

/-- A draw the environment has fixed is the one taken. -/
theorem drawWrite_fixed (s : State) (d : WriteDraw) (ds : List WriteDraw) (h : s.link.writes = d :: ds) :
    drawWrite s = (d, { s with link := { s.link with writes := ds } }) := by
  simp only [drawWrite, h]

/-- A read draw touches nothing but the environment. -/
theorem drawRead_spec (s : State) : ∃ d l, drawRead s = (d, { s with link := l }) := by
  unfold drawRead
  split <;> exact ⟨_, _, rfl⟩

/-- A draw the environment has fixed is the one taken. -/
theorem drawRead_fixed (s : State) (d : ReadDraw) (ds : List ReadDraw) (h : s.link.reads = d :: ds) :
    drawRead s = (d, { s with link := { s.link with reads := ds } }) := by
  simp only [drawRead, h]

/-- A write appends the bytes its draw lets through to `TXLOG`, and touches nothing else of the block. -/
theorem uartWrite_spec (bs : Bytes) (s : State) :
    ∃ d l, uartWrite bs s = (d, { s with link := l, txlog := s.txlog ++ wireBytes d bs }) := by
  obtain ⟨d, l, h⟩ := drawWrite_spec s
  exact ⟨d, l, by simp only [uartWrite, h]⟩

/-- The same with the draw fixed. -/
theorem uartWrite_fixed (bs : Bytes) (s : State) (d : WriteDraw) (ds : List WriteDraw)
    (h : s.link.writes = d :: ds) :
    uartWrite bs s =
      (d, { s with link := { s.link with writes := ds }, txlog := s.txlog ++ wireBytes d bs }) := by
  simp only [uartWrite, drawWrite_fixed s d ds h]

/-- What reaches the wire is a prefix of what was written. -/
theorem wireBytes_prefix (d : WriteDraw) (bs : Bytes) : ∃ k, k ≤ bs.length ∧ wireBytes d bs = bs.take k := by
  cases d with
  | ok => exact ⟨bs.length, le_refl _, by simp [wireBytes]⟩
  | ioError k =>
    refine ⟨min k bs.length, Nat.min_le_right _ _, ?_⟩
    simp [wireBytes, List.take_eq_take_iff]

/-- A read starts and ends with an idle receiver and touches nothing else of the block. -/
theorem uartReadFrame_spec (t : U32) (s : State) :
    ∃ d l, uartReadFrame t s =
      (readResult s.cfg.slip.slipEnd Rx.idle d, { s with rx := Rx.idle, link := l }) := by
  obtain ⟨d, l, h⟩ := drawRead_spec { s with rx := Rx.idle }
  exact ⟨d, l, by simp only [uartReadFrame, h]⟩

/-- The same with the draw fixed. -/
theorem uartReadFrame_fixed (t : U32) (s : State) (d : ReadDraw) (ds : List ReadDraw)
    (h : s.link.reads = d :: ds) :
    uartReadFrame t s =
      (readResult s.cfg.slip.slipEnd Rx.idle d,
        { s with rx := Rx.idle, link := { s.link with reads := ds } }) := by
  simp only [uartReadFrame, drawRead_fixed { s with rx := Rx.idle } d ds h]

/-- The drain of SEND_PACKET changes at most `SEQ`, and that only to 0. -/
theorem sendDrain_spec (s : State) :
    ∃ q l, sendDrain s = { s with seq := q, rx := Rx.idle, link := l } ∧ (q = s.seq ∨ q = 0#3) := by
  obtain ⟨d, l, h⟩ := uartReadFrame_spec ackTimeoutMs s
  unfold sendDrain
  rw [h]
  cases readResult s.cfg.slip.slipEnd Rx.idle d with
  | frame f => exact ⟨s.seq, l, rfl, .inl rfl⟩
  | timeout => exact ⟨0#3, l, rfl, .inr rfl⟩
  | ioError => exact ⟨0#3, l, rfl, .inr rfl⟩

/-- One step of a run. -/
theorem run_succ (k : Nat) (s t : State) (h : step s = .next t) : run (k + 1) s = run k t := by
  have h' : Sys2Proof.core.step s = Host.Outcome.next t := h
  unfold run
  simp only [Host.Core.run]
  rw [h']

/-- No steps. -/
theorem run_zero (s : State) : run 0 s = .next s := rfl

end Sys2Proof.Laws
end

