-- ==== Sys2Proof/Laws/Step.lean ====
section
/-! SUPPORT. Everything a send, a write, a read, an instruction and a step can do, each said once, so that no later proof
unfolds them. -/

namespace Sys2Proof.Laws

open Sys2Proof.Machine

/-- A state completed by a command that reaches neither the serial link nor the receiver, returning `code`, `value` and
`out` and leaving `r` in `CRC`: an error leaves `CRC` and returns nothing, and it is none of a session's two. -/
def PureCompletion (s t : State) : Prop :=
  ∃ (code : ResultCode) (value : U32) (out : Bytes) (r : U16),
    (code ≠ .ok → value = 0#32 ∧ out = [] ∧ r = s.crc) ∧ code ≠ .writeFailure ∧ code ≠ .sessionFailed ∧
    t = { s with crc := r, result := code, reply := some { code := code, value := value, out := out } }

/-- The packet-send primitive (43_transport.md R170): refused for a failed session, refused for length, sent and
drained, or failed on the wire. -/
theorem sendPacket_cases (payload : Bytes) (s : State) :
    (s.wfail = true ∧ sendPacket payload s = raiseError .sessionFailed s) ∨
    (s.wfail = false ∧ 4095 < payload.length ∧ sendPacket payload s = raiseError .payloadTooLong s) ∨
    (s.wfail = false ∧ payload.length ≤ 4095 ∧
      ((∃ q l, (q = s.seq + 1#3 ∨ q = 0#3) ∧ sendPacket payload s = { s with
          seq := q, txlog := s.txlog ++ packet s.cfg.slip (s.seq + 1#3) payload, rx := Rx.idle, link := l,
          result := .ok, reply := some { code := .ok, value := 0#32, out := [] } }) ∨
       (∃ k l, k ≤ (packet s.cfg.slip (s.seq + 1#3) payload).length ∧ sendPacket payload s = { s with
          seq := s.seq + 1#3, wfail := true, link := l,
          txlog := s.txlog ++ (packet s.cfg.slip (s.seq + 1#3) payload).take k,
          result := .writeFailure, reply := some { code := .writeFailure, value := 0#32, out := [] } }))) := by
  unfold sendPacket maxPayload
  by_cases hw : s.wfail = true
  · simp [hw]
  by_cases hl : 4095 < payload.length
  · simp [hw, hl]
  refine .inr (.inr ⟨by simpa using hw, by omega, ?_⟩)
  rw [if_neg hw, if_neg hl]
  unfold sendFrame
  obtain ⟨d, l, h⟩ := uartWrite_spec (packet s.cfg.slip (s.seq + 1#3) payload) { s with seq := s.seq + 1#3 }
  rw [h]
  cases d with
  | ok =>
    obtain ⟨q, l', h1, h2⟩ := sendDrain_spec
      { s with seq := s.seq + 1#3, link := l,
               txlog := s.txlog ++ wireBytes .ok (packet s.cfg.slip (s.seq + 1#3) payload) }
    refine .inl ⟨q, l', h2, ?_⟩
    show complete .ok 0#32 [] (sendDrain _) = _
    rw [h1]
    rfl
  | ioError k =>
    obtain ⟨k', h1, h2⟩ := wireBytes_prefix (.ioError k) (packet s.cfg.slip (s.seq + 1#3) payload)
    refine .inr ⟨k', l, h1, ?_⟩
    rw [← h2]
    rfl

/-- An instruction that hands a payload to the packet-send primitive is that send (43_transport.md R170; note 6). -/
theorem exec_of_sendsPayload (i : Instr) (payload : Bytes) (h : sendsPayload i = some payload) (s : State) :
    exec i s = .next (sendPacket payload s) := by
  cases i <;> simp [sendsPayload] at h <;> subst h <;> rfl

/-- TX_WRITE (43_transport.md R161): refused for a failed session, written, or failed after a prefix. -/
theorem txWrite_cases (data : Bytes) (s : State) :
    (s.wfail = true ∧ exec (.txWrite data) s = .next (raiseError .sessionFailed s)) ∨
    (s.wfail = false ∧
      ((∃ l, exec (.txWrite data) s = .next { s with
          txlog := s.txlog ++ data, link := l, result := .ok,
          reply := some { code := .ok, value := lengthValue data.length, out := [] } }) ∨
       (∃ k l, k ≤ data.length ∧ exec (.txWrite data) s = .next { s with
          txlog := s.txlog ++ data.take k, link := l, wfail := true,
          result := .writeFailure, reply := some { code := .writeFailure, value := 0#32, out := [] } }))) := by
  by_cases hw : s.wfail = true
  · simp [exec, execTxWrite, hw]
  refine .inr ⟨by simpa using hw, ?_⟩
  simp only [exec, execTxWrite, txWriteOpen]
  obtain ⟨d, l, h⟩ := uartWrite_spec data s
  rw [if_neg hw, h]
  cases d with
  | ok => exact .inl ⟨l, rfl⟩
  | ioError k =>
    obtain ⟨k', h1, h2⟩ := wireBytes_prefix (.ioError k) data
    refine .inr ⟨k', l, h1, ?_⟩
    rw [h2]
    rfl

/-- RX_READ_FRAME (43_transport.md R165): a frame the receiver completed, or one of the two read errors. -/
theorem rxReadFrame_cases (t : U32) (s : State) :
    ∃ l,
      (∃ bytes f, receive s.cfg.slip.slipEnd Rx.idle bytes = some f ∧
        exec (.rxReadFrame t) s = .next { s with
          rx := Rx.idle, link := l, result := .ok,
          reply := some { code := .ok, value := lengthValue f.length, out := f } }) ∨
      (∃ code, (code = .readTimeout ∨ code = .readIoError) ∧
        exec (.rxReadFrame t) s = .next { s with
          rx := Rx.idle, link := l, result := code,
          reply := some { code := code, value := 0#32, out := [] } }) := by
  obtain ⟨d, l, h⟩ := uartReadFrame_spec t s
  refine ⟨l, ?_⟩
  simp only [exec, execRxReadFrame, h, readResult]
  cases hr : receive s.cfg.slip.slipEnd Rx.idle d.bytes with
  | some f => exact .inl ⟨_, f, hr, rfl⟩
  | none =>
    cases d.ending with
    | timeout => exact .inr ⟨.readTimeout, .inl rfl, rfl⟩
    | ioError => exact .inr ⟨.readIoError, .inr rfl, rfl⟩

/-- Every instruction is a send, TX_WRITE, RX_READ_FRAME, SESSION_RESET, STATUS_READ, or a pure completion, which changes
`CRC` only for the three checksum commands. -/
theorem exec_cases (i : Instr) (s : State) :
    (∃ payload, sendsPayload i = some payload ∧ exec i s = .next (sendPacket payload s)) ∨
    (∃ data, i = .txWrite data) ∨ (∃ t, i = .rxReadFrame t) ∨ i = .sessionReset ∨ i = .statusRead ∨
    (∃ t, exec i s = .next t ∧ PureCompletion s t ∧
      (t.crc ≠ s.crc → i = .crcInit ∨ (∃ d, i = .crcUpdate d) ∨ ∃ d, i = .checksum d)) := by
  cases i
  case sendPacket p => exact .inl ⟨p, rfl, rfl⟩
  case dfuInit p => exact .inl ⟨_, rfl, rfl⟩
  case dfuStart p => exact .inl ⟨_, rfl, rfl⟩
  case dfuData p => exact .inl ⟨_, rfl, rfl⟩
  case dfuStop p => exact .inl ⟨_, rfl, rfl⟩
  case txWrite => simp
  case rxReadFrame => simp
  case sessionReset => simp
  case statusRead => simp
  all_goals refine .inr (.inr (.inr (.inr (.inr ?_))))
  case crcInit => exact ⟨_, rfl, ⟨.ok, _, _, _, by simp, by simp, by simp, rfl⟩, by simp⟩
  case crcUpdate d => exact ⟨_, rfl, ⟨.ok, _, _, _, by simp, by simp, by simp, rfl⟩, by simp⟩
  case checksum d => exact ⟨_, rfl, ⟨.ok, _, _, _, by simp, by simp, by simp, rfl⟩, by simp⟩
  case slipEncode d => exact ⟨_, rfl, ⟨.ok, _, _, s.crc, by simp, by simp, by simp, rfl⟩, by simp⟩
  case slipDecode d =>
    refine ⟨_, rfl, ?_⟩
    cases slipDecode s.cfg.slip s.cfg.escPolicy d with
    | none => exact ⟨⟨.decodeError, _, _, s.crc, by simp, by simp, by simp, rfl⟩, by simp [decodeCompletion]⟩
    | some o => exact ⟨⟨.ok, _, _, s.crc, by simp, by simp, by simp, rfl⟩, by simp [decodeCompletion]⟩
  case packHeader q n =>
    refine ⟨_, rfl, ?_⟩
    split
    · exact ⟨⟨.payloadTooLong, _, _, s.crc, by simp, by simp, by simp, rfl⟩, by simp⟩
    · exact ⟨⟨.ok, _, _, s.crc, by simp, by simp, by simp, rfl⟩, by simp⟩
  case buildPacket q p =>
    refine ⟨_, rfl, ?_⟩
    split
    · exact ⟨⟨.payloadTooLong, _, _, s.crc, by simp, by simp, by simp, rfl⟩, by simp⟩
    · exact ⟨⟨.ok, _, _, s.crc, by simp, by simp, by simp, rfl⟩, by simp⟩
  case parseAck b =>
    refine ⟨_, rfl, ?_⟩
    cases parseAck b with
    | none => exact ⟨⟨.malformedAck, _, _, s.crc, by simp, by simp, by simp, rfl⟩, by simp [ackCompletion]⟩
    | some a => exact ⟨⟨.ok, _, _, s.crc, by simp, by simp, by simp, rfl⟩, by simp [ackCompletion]⟩

/-- A step: refused for its parameters, idle, or one item taken: a wait, hardware reset, an instruction run, a command
that fails R69 completed as illegal, or a payload of an undefined DFU opcode refused. -/
theorem step_cases (s : State) :
    (slipLegal s.cfg.slip = false ∧ step s = .refused .illegalConfiguration) ∨
    (slipLegal s.cfg.slip = true ∧
      ((s.pending = [] ∧ step s = .next s) ∨
       ∃ h rest, s.pending = h :: rest ∧
        ((∃ ms, h = .wait ms ∧ step s = .next { s with pending := rest }) ∨
         (h = .hardwareReset ∧ step s = .next (hardwareReset { s with pending := rest })) ∨
         (∃ i, decode (maxData s.cfg) h = .ok i ∧ step s = exec i { s with pending := rest }) ∨
         (∃ why, decode (maxData s.cfg) h = .error why ∧ why ≠ .undefinedDfuOpcode ∧
            step s = .next (illegalCommand { s with pending := rest })) ∨
         ((∃ bytes, h = .payload bytes) ∧ decode (maxData s.cfg) h = .error .undefinedDfuOpcode ∧
            step s = .refused .undefinedDfuOpcode)))) := by
  by_cases hl : slipLegal s.cfg.slip = true
  swap
  · have hl : slipLegal s.cfg.slip = false := by simpa using hl
    exact .inl ⟨hl, by simp [step, fetch, hl]⟩
  refine .inr ⟨hl, ?_⟩
  cases hp : s.pending with
  | nil => exact .inl ⟨rfl, by simp [step, fetch, hl, hp]⟩
  | cons h rest =>
    refine .inr ⟨h, rest, rfl, ?_⟩
    cases h with
    | wait ms => exact .inl ⟨ms, rfl, by simp [step, fetch, hl, hp, takeItem]⟩
    | hardwareReset => exact .inr (.inl ⟨rfl, by simp [step, fetch, hl, hp, takeItem]⟩)
    | command w data =>
      refine .inr (.inr ?_)
      cases hd : decode (maxData s.cfg) (.command w data) with
      | ok i => exact .inl ⟨i, rfl, by simp [step, fetch, hl, hp, takeItem, hd]⟩
      | error why =>
        have hne : why ≠ .undefinedDfuOpcode ∧ why ≠ .notACommand := by
          simp only [decode, decodeCommand] at hd
          repeat' split at hd
          all_goals cases hd
          all_goals exact ⟨by simp, by simp⟩
        refine .inr (.inl ⟨why, rfl, hne.1, ?_⟩)
        cases why <;> simp [step, fetch, hl, hp, takeItem, hd, rejectItem] at hne ⊢
    | payload bytes =>
      refine .inr (.inr ?_)
      cases hd : decode (maxData s.cfg) (.payload bytes) with
      | ok i => exact .inl ⟨i, rfl, by simp [step, fetch, hl, hp, takeItem, hd]⟩
      | error why =>
        have hwhy : why = .undefinedDfuOpcode ∨ why = .dataTooLong := by
          simp only [decode, decodePayload] at hd
          repeat' split at hd
          all_goals cases hd
          all_goals simp
        rcases hwhy with rfl | rfl
        · exact .inr (.inr ⟨⟨_, rfl⟩, rfl, by simp [step, fetch, hl, hp, takeItem, hd, rejectItem]⟩)
        · exact .inr (.inl ⟨.dataTooLong, rfl, by simp, by simp [step, fetch, hl, hp, takeItem, hd, rejectItem]⟩)

end Sys2Proof.Laws
end

