-- ==== Sys2Proof/Laws/Host.lean ====
section
/-! SUPPORT. The host's plan and its reactions (spec/48_host_protocol.md R205, R207), each said once. -/

namespace Sys2Proof.Laws

open Sys2Proof.Machine

/-- The program of a transfer, item by item (R205). -/
theorem transferProgram_eq (image blob : Bytes) :
    transferProgram image blob =
      [encode .sessionReset, sendItem (startPayload image.length), .wait (eraseMs image.length),
        sendItem (initPayload blob), .wait settleMs] ++
      (List.range (chunkCount image.length)).flatMap (chunkItems image (chunkCount image.length)) ++
      [sendItem stopPayload] := by
  simp [transferProgram, transferPlan, List.map_flatMap, Function.comp_def]

/-- What a send item is: the command word of SEND_PACKET and the payload. -/
theorem sendItem_eq (payload : Bytes) : sendItem payload = .command 0x0040#16 payload := by
  show HostItem.command (commandWord .sendPacket 0#3) payload = _
  rw [show commandWord .sendPacket 0#3 = 0x0040#16 by decide]

/-- The host reacts to a failed send by stopping, and to nothing else (R207, R208). -/
theorem hostReaction_cases (phase : TransferPhase) (h : HostItem) (record : HostRecord) (s : State) :
    (isSend h = true ∧ s.reply.map Reply.code = some .writeFailure ∧
      hostReaction phase h record s =
        ({ phase := .failed, failedChunk := failingChunk phase }, { s with pending := [] })) ∨
    ((isSend h = false ∨ s.reply.map Reply.code ≠ some .writeFailure) ∧
      hostReaction phase h record s = ({ record with phase := phase }, s)) := by
  unfold hostReaction sendFailed
  by_cases h1 : isSend h = true
  · by_cases h2 : s.reply.map Reply.code = some .writeFailure
    · exact .inl ⟨h1, h2, by simp [h1, h2]⟩
    · exact .inr ⟨.inr h2, by simp [h2]⟩
  · have h1 : isSend h = false := by simpa using h1
    exact .inr ⟨.inl h1, by simp [h1]⟩

/-- What `finish` does: a `finalizing` record is `complete`, and any other is as it was (R205, note 24). -/
theorem finish_cases (record : HostRecord) :
    (record.phase = .finalizing ∧ record.finish = { record with phase := .complete }) ∨
    (record.phase ≠ .finalizing ∧ record.finish = record) := by
  unfold HostRecord.finish
  by_cases h : record.phase = .finalizing
  · exact .inl ⟨h, by simp [h]⟩
  · exact .inr ⟨h, by simp [h]⟩

@[simp] theorem finish_failedChunk (record : HostRecord) : record.finish.failedChunk = record.failedChunk := by
  rcases finish_cases record with ⟨-, h⟩ | ⟨-, h⟩ <;> rw [h]

@[simp] theorem conductTransfer_nil (record : HostRecord) (s : State) :
    conductTransfer [] record s = .next (record.finish, s) := rfl

/-- An item after which the host goes on. -/
theorem conductTransfer_next (phase : TransferPhase) (h : HostItem) (rest : List (TransferPhase × HostItem))
    (record : HostRecord) (s t : State) (hs : step (issueFirst h s) = .next t) (hp : phase ≠ .failed)
    (hf : isSend h = false ∨ t.reply.map Reply.code ≠ some .writeFailure) :
    conductTransfer ((phase, h) :: rest) record s = conductTransfer rest { record with phase := phase } t := by
  rcases hostReaction_cases phase h record t with ⟨h1, h2, -⟩ | ⟨-, h3⟩
  · rcases hf with hf | hf
    · rw [h1] at hf
      cases hf
    · exact absurd h2 hf
  · simp [conductTransfer, hs, h3, hp]

/-- An item at which the host stops. -/
theorem conductTransfer_failed (phase : TransferPhase) (h : HostItem) (rest : List (TransferPhase × HostItem))
    (record : HostRecord) (s t : State) (hs : step (issueFirst h s) = .next t) (h1 : isSend h = true)
    (h2 : t.reply.map Reply.code = some .writeFailure) :
    conductTransfer ((phase, h) :: rest) record s =
      .next ({ phase := .failed, failedChunk := failingChunk phase }, { t with pending := [] }) := by
  rcases hostReaction_cases phase h record t with ⟨-, -, h3⟩ | ⟨hf, -⟩
  · simp [conductTransfer, hs, h3]
  · rcases hf with hf | hf
    · rw [h1] at hf
      cases hf
    · exact absurd h2 hf

end Sys2Proof.Laws
end

