-- ==== Sys2Proof/Laws/PerInstr.lean ====
section
/-! SUPPORT. The per-instruction family `TableWord`: what the encoder writes for an instruction has the bits that its
row of spec/opcode_table.json fixes (its `match` under its `mask`). -/

namespace Sys2Proof.Laws

open Sys2Proof.Machine

/-- The row's word of a host item: the command word, or the first four payload bytes as a little-endian number. -/
def TableWord.wordOf (h : HostItem) : Nat :=
  match h with
  | .command w _ => w.toNat
  | .payload (d0 :: d1 :: d2 :: d3 :: _) => (ofLe32 d0 d1 d2 d3).toNat
  | _ => 0

/-- The `match` and `mask` of an instruction's row of spec/opcode_table.json. -/
def TableWord.row (i : Instr) : Nat × Nat :=
  match i with
  | .crcInit => (0x0001, 0xFFFF)
  | .crcUpdate _ => (0x0002, 0xFFFF)
  | .checksum _ => (0x0003, 0xFFFF)
  | .slipEncode _ => (0x0010, 0xFFFF)
  | .slipDecode _ => (0x0011, 0xFFFF)
  | .packHeader _ _ => (0x0020, 0xF8FF)
  | .buildPacket _ _ => (0x0021, 0xF8FF)
  | .parseAck _ => (0x0022, 0xFFFF)
  | .txWrite _ => (0x0030, 0xFFFF)
  | .rxReadFrame _ => (0x0031, 0xFFFF)
  | .sendPacket _ => (0x0040, 0xFFFF)
  | .statusRead => (0x0050, 0xFFFF)
  | .sessionReset => (0x0051, 0xFFFF)
  | .dfuInit _ => (0x00000001, 0xFFFFFFFF)
  | .dfuStart _ => (0x00000003, 0xFFFFFFFF)
  | .dfuData _ => (0x00000004, 0xFFFFFFFF)
  | .dfuStop _ => (0x00000005, 0xFFFFFFFF)

/-- The encoded word matches the row. -/
def TableWord.Statement (i : Instr) : Prop :=
  TableWord.wordOf (encode i) &&& (TableWord.row i).2 = (TableWord.row i).1

theorem TableWord.crcInit : TableWord.Statement .crcInit := by unfold TableWord.Statement; decide
theorem TableWord.crcUpdate (data : Bytes) : TableWord.Statement (.crcUpdate data) := by
  show (commandWord .crcUpdate 0#3).toNat &&& 0xFFFF = 0x0002
  decide
theorem TableWord.checksum (data : Bytes) : TableWord.Statement (.checksum data) := by
  show (commandWord .checksum 0#3).toNat &&& 0xFFFF = 0x0003
  decide
theorem TableWord.slipEncode (data : Bytes) : TableWord.Statement (.slipEncode data) := by
  show (commandWord .slipEncode 0#3).toNat &&& 0xFFFF = 0x0010
  decide
theorem TableWord.slipDecode (data : Bytes) : TableWord.Statement (.slipDecode data) := by
  show (commandWord .slipDecode 0#3).toNat &&& 0xFFFF = 0x0011
  decide
theorem TableWord.packHeader (sq : BitVec 3) (n : U16) : TableWord.Statement (.packHeader sq n) := by
  show (commandWord .packHeader sq).toNat &&& 0xF8FF = 0x0020
  revert sq; decide
theorem TableWord.buildPacket (sq : BitVec 3) (payload : Bytes) :
    TableWord.Statement (.buildPacket sq payload) := by
  show (commandWord .buildPacket sq).toNat &&& 0xF8FF = 0x0021
  revert sq; decide
theorem TableWord.parseAck (body : Bytes) : TableWord.Statement (.parseAck body) := by
  show (commandWord .parseAck 0#3).toNat &&& 0xFFFF = 0x0022
  decide
theorem TableWord.txWrite (data : Bytes) : TableWord.Statement (.txWrite data) := by
  show (commandWord .txWrite 0#3).toNat &&& 0xFFFF = 0x0030
  decide
theorem TableWord.rxReadFrame (t : U32) : TableWord.Statement (.rxReadFrame t) := by
  show (commandWord .rxReadFrame 0#3).toNat &&& 0xFFFF = 0x0031
  decide
theorem TableWord.sendPacket (payload : Bytes) : TableWord.Statement (.sendPacket payload) := by
  show (commandWord .sendPacket 0#3).toNat &&& 0xFFFF = 0x0040
  decide
theorem TableWord.statusRead : TableWord.Statement .statusRead := by unfold TableWord.Statement; decide
theorem TableWord.sessionReset : TableWord.Statement .sessionReset := by unfold TableWord.Statement; decide
theorem TableWord.dfuInit (rest : Bytes) : TableWord.Statement (.dfuInit rest) := by
  show (ofLe32 1#8 0#8 0#8 0#8).toNat &&& 0xFFFFFFFF = 1
  decide
theorem TableWord.dfuStart (rest : Bytes) : TableWord.Statement (.dfuStart rest) := by
  show (ofLe32 3#8 0#8 0#8 0#8).toNat &&& 0xFFFFFFFF = 3
  decide
theorem TableWord.dfuData (rest : Bytes) : TableWord.Statement (.dfuData rest) := by
  show (ofLe32 4#8 0#8 0#8 0#8).toNat &&& 0xFFFFFFFF = 4
  decide
theorem TableWord.dfuStop (rest : Bytes) : TableWord.Statement (.dfuStop rest) := by
  show (ofLe32 5#8 0#8 0#8 0#8).toNat &&& 0xFFFFFFFF = 5
  decide

end Sys2Proof.Laws
end

