-- ==== Sys2Proof/Tests/Slice0.lean ====
section
/-! SUPPORT. Tests: words written out from the spec's encodings, the vectors of spec/95_test_vectors.md on one small
state, and for each obligation with hypotheses a state and operands that meet them together (`test_witness_…`, named
after the obligation). -/

namespace Sys2Proof.Tests

open Sys2Proof.Machine

/-! ## The test bench -/

/-- The default SLIP bytes, the least `MAX_DATA` and one value for each OPEN parameter. -/
def params (policy : EscPolicy) : Params :=
  { slip := SlipParams.default, escPolicy := policy, maxDataExtra := 0,
    uart := { baudRate := 0, dataBits := 0, parity := 0, stopBits := 0, bitOrder := 0, flowControl := 0 },
    hostBinding := .functionCall }

/-- The reset registers, with draws fixed and items pending. -/
def bench (policy : EscPolicy) (ws : List WriteDraw) (rs : List ReadDraw) (items : List HostItem) : State :=
  { State.reset with cfg := params policy, pending := items, link := { writes := ws, reads := rs, drawn := 0 } }

/-- The bench with nothing fixed. -/
def plain : State := bench .reject [] [] []

/-- The bench after a write failure (V-T14's register values). -/
def failed : State := { plain with seq := 1#3, wfail := true, result := .writeFailure }

/-- What an outcome returned. -/
def replyOf (o : Host.Outcome State Fault Refusal) : Option (ResultCode × U32 × Bytes) :=
  match o with
  | .next s => s.reply.map fun r => (r.code, r.value, r.out)
  | _ => none

/-- `SEQ`, `WFAIL`, `RESULT` and `TXLOG` of an outcome. -/
def sentOf (o : Host.Outcome State Fault Refusal) : Option (BitVec 3 × Bool × ResultCode × Bytes) :=
  match o with
  | .next s => some (s.seq, s.wfail, s.result, s.txlog)
  | _ => none

/-- `CRC` and the returned value of an outcome. -/
def crcOf (o : Host.Outcome State Fault Refusal) : Option (U16 × Option U32) :=
  match o with
  | .next s => some (s.crc, s.reply.map fun r => r.value)
  | _ => none

/-- The ASCII digits of V-C12. -/
def digits : Bytes := [0x31#8, 0x32#8, 0x33#8, 0x34#8, 0x35#8, 0x36#8, 0x37#8, 0x38#8, 0x39#8]

/-- The Stop payload of V-P14 and V-T8. -/
def stop : Bytes := [5#8, 0#8, 0#8, 0#8]

/-- V-P14's frame. -/
def stopFrame : Bytes :=
  [0xC0#8, 0xD1#8, 0x4E#8, 0x00#8, 0xE1#8, 0x05#8, 0x00#8, 0x00#8, 0x00#8, 0x74#8, 0x82#8, 0xC0#8]

/-- A read in which the peer sends `bytes` and nothing more arrives. -/
def peer (bytes : Bytes) : ReadDraw := { bytes := bytes, ending := .timeout }

/-- V-T8's acknowledgment. -/
def ackRead : ReadDraw := peer [0xC0#8, 0xCA#8, 0x00#8, 0x00#8, 0x36#8, 0xC0#8]

/-- `n` zero bytes. -/
def zeros (n : Nat) : Bytes := List.replicate n 0#8

theorem zeros_length (n : Nat) : (zeros n).length = n := List.length_replicate

/-- The bench with commands pending. -/
def withItems (items : List HostItem) : State := bench .reject [.ok] [ackRead] items

/-! ## Ill-formed instructions are refused by the check (30_encoding.md R66) -/

theorem test_illFormed_crcUpdate : wellFormed 8204 (.crcUpdate (zeros 8205)) = false := by simp [wellFormed, zeros_length]
theorem test_illFormed_checksum : wellFormed 8204 (.checksum (zeros 8205)) = false := by simp [wellFormed, zeros_length]
theorem test_illFormed_slipEncode : wellFormed 8204 (.slipEncode (zeros 8205)) = false := by simp [wellFormed, zeros_length]
theorem test_illFormed_slipDecode : wellFormed 8204 (.slipDecode (zeros 8205)) = false := by simp [wellFormed, zeros_length]
theorem test_illFormed_buildPacket : wellFormed 8204 (.buildPacket 0#3 (zeros 8205)) = false := by simp [wellFormed, zeros_length]
theorem test_illFormed_parseAck : wellFormed 8204 (.parseAck (zeros 8205)) = false := by simp [wellFormed, zeros_length]
theorem test_illFormed_txWrite : wellFormed 8204 (.txWrite (zeros 8205)) = false := by simp [wellFormed, zeros_length]
theorem test_illFormed_sendPacket : wellFormed 8204 (.sendPacket (zeros 8205)) = false := by simp [wellFormed, zeros_length]
theorem test_illFormed_dfuInit : wellFormed 8204 (.dfuInit (zeros 8201)) = false := by simp [wellFormed, zeros_length]
theorem test_illFormed_dfuStart : wellFormed 8204 (.dfuStart (zeros 8201)) = false := by simp [wellFormed, zeros_length]
theorem test_illFormed_dfuData : wellFormed 8204 (.dfuData (zeros 8201)) = false := by simp [wellFormed, zeros_length]
theorem test_illFormed_dfuStop : wellFormed 8204 (.dfuStop (zeros 8201)) = false := by simp [wellFormed, zeros_length]
theorem test_wellFormed_at_the_limit : wellFormed 8204 (.txWrite (zeros 8204)) = true := by
  simp [wellFormed, zeros_length]

/-! ## Words written out bit by bit: reserved 5 bits, `SQ` 3 bits, `OP` 8 bits (R66, R67) -/

theorem test_decode_crcInit : decode 8204 (.command 0b0000000000000001#16 []) = .ok .crcInit := by decide
theorem test_decode_crcUpdate :
    decode 8204 (.command 0b0000000000000010#16 [0x31#8]) = .ok (.crcUpdate [0x31#8]) := by decide
theorem test_decode_checksum :
    decode 8204 (.command 0b0000000000000011#16 [0xFF#8]) = .ok (.checksum [0xFF#8]) := by decide
theorem test_decode_slipEncode :
    decode 8204 (.command 0b0000000000010000#16 [0xC0#8]) = .ok (.slipEncode [0xC0#8]) := by decide
theorem test_decode_slipDecode :
    decode 8204 (.command 0b0000000000010001#16 [0xC0#8, 0xC0#8]) = .ok (.slipDecode [0xC0#8, 0xC0#8]) := by decide
theorem test_decode_packHeader :
    decode 8204 (.command 0b0000010100100000#16 [0x04#8, 0x02#8]) = .ok (.packHeader 5#3 516#16) := by decide
theorem test_decode_buildPacket :
    decode 8204 (.command 0b0000000100100001#16 [5#8, 0#8, 0#8, 0#8]) = .ok (.buildPacket 1#3 [5#8, 0#8, 0#8, 0#8]) := by
  decide
theorem test_decode_parseAck :
    decode 8204 (.command 0b0000000000100010#16 [0xD1#8]) = .ok (.parseAck [0xD1#8]) := by decide
theorem test_decode_txWrite :
    decode 8204 (.command 0b0000000000110000#16 [0x01#8]) = .ok (.txWrite [0x01#8]) := by decide
theorem test_decode_rxReadFrame :
    decode 8204 (.command 0b0000000000110001#16 [0xE8#8, 0x03#8, 0x00#8, 0x80#8]) =
      .ok (.rxReadFrame 2147484648#32) := by decide
theorem test_decode_sendPacket :
    decode 8204 (.command 0b0000000001000000#16 []) = .ok (.sendPacket []) := by decide
theorem test_decode_statusRead : decode 8204 (.command 0b0000000001010000#16 []) = .ok .statusRead := by decide
theorem test_decode_sessionReset : decode 8204 (.command 0b0000000001010001#16 []) = .ok .sessionReset := by decide
theorem test_decode_dfuInit :
    decode 8204 (.payload [0x01#8, 0x00#8, 0x00#8, 0x00#8, 0x11#8]) = .ok (.dfuInit [0x11#8]) := by decide
theorem test_decode_dfuStart :
    decode 8204 (.payload [0x03#8, 0x00#8, 0x00#8, 0x00#8]) = .ok (.dfuStart []) := by decide
theorem test_decode_dfuData :
    decode 8204 (.payload [0x04#8, 0x00#8, 0x00#8, 0x00#8, 0xC0#8]) = .ok (.dfuData [0xC0#8]) := by decide
theorem test_decode_dfuStop :
    decode 8204 (.payload [0x05#8, 0x00#8, 0x00#8, 0x00#8]) = .ok (.dfuStop []) := by decide

/-! ## Illegal commands, each check by name, in R69's order (V-E1 to V-E8) -/

theorem test_reject_reservedBits : decode 8204 (.command 0x08FF#16 []) = .error .reservedBits := by decide
theorem test_reject_unassignedOp : decode 8204 (.command 0x01FF#16 []) = .error .unassignedOp := by decide
theorem test_reject_sqNotUsed : decode 8204 (.command 0x0140#16 stop) = .error .sqNotUsed := by decide
theorem test_reject_dataTooLong : decode 8204 (.command 0x0002#16 (zeros 8205)) = .error .dataTooLong := by
  have h1 : reservedField 0x0002#16 = 0#5 := by decide
  have h2 : opOfCode (opField 0x0002#16) = some .crcUpdate := by decide
  have h3 : sqField 0x0002#16 = 0#3 := by decide
  simp [decode, decodeCommand, h1, h2, h3, overLimit, minMaxData, zeros_length]
theorem test_reject_dataShape : decode 8204 (.command 0x0020#16 [0x14#8, 0x00#8, 0x00#8]) = .error .dataShape := by
  decide
theorem test_illegal_command_step :
    sentOf (step (bench .reject [] [] [.command 0x0140#16 stop])) = some (0#3, false, .illegalCommand, []) := by
  decide
/-- V-E9. -/
theorem test_status_after_illegal :
    replyOf (exec .statusRead { plain with result := .illegalCommand }) = some (.ok, 0xFFFF0070#32, []) := by decide

/-! ## Checksum (V-C) -/

theorem test_crcStep_from_init : crcStep 0xFFFF#16 0x00#8 = 0xE1F0#16 := by decide
theorem test_crcStep_general : crcStep 0x1234#16 0x56#8 = 0x3C40#16 := by decide
theorem test_crcInit : crcOf (exec .crcInit { plain with crc := 0x29B1#16 }) = some (0xFFFF#16, some 0xFFFF#32) := by
  decide
/-- V-C13, V-C14. -/
theorem test_crcUpdate :
    crcOf (exec (.crcUpdate (digits.take 4)) plain) = some (0x5349#16, some 0x5349#32) ∧
    crcOf (exec (.crcUpdate (digits.drop 4)) { plain with crc := 0x5349#16 }) = some (0x29B1#16, some 0x29B1#32) := by
  decide
/-- V-C12. -/
theorem test_checksum_check_value : crcOf (exec (.checksum digits) plain) = some (0x29B1#16, some 0x29B1#32) := by
  decide
/-- V-C16, V-C5, V-C7. -/
theorem test_checksum_corners :
    crcOf (exec (.checksum [0#8]) { plain with crc := 0x1234#16 }) = some (0xE1F0#16, some 0xE1F0#32) ∧
    checksum [] = 0xFFFF#16 ∧ checksum [0xFF#8] = 0xFF00#16 := by decide

/-! ## Framer (V-F) -/

/-- V-F6. -/
theorem test_slipEncode_specials :
    replyOf (exec (.slipEncode [0xC0#8, 0xDB#8, 0xDC#8, 0xDD#8]) plain) =
      some (.ok, 8#32, [0xC0#8, 0xDB#8, 0xDC#8, 0xDB#8, 0xDD#8, 0xDC#8, 0xDD#8, 0xC0#8]) := by decide
/-- V-F1, V-F7. -/
theorem test_slipEncode_corners :
    replyOf (exec (.slipEncode []) plain) = some (.ok, 2#32, [0xC0#8, 0xC0#8]) ∧
    replyOf (exec (.slipEncode [0x01#8, 0xC0#8, 0x02#8]) plain) =
      some (.ok, 6#32, [0xC0#8, 0x01#8, 0xDB#8, 0xDC#8, 0x02#8, 0xC0#8]) := by decide
/-- V-F13: the delimiter is stripped before the escape pair is read. -/
theorem test_slipDecode_strips_first :
    replyOf (exec (.slipDecode [0xC0#8, 0xDB#8, 0xC0#8, 0xDC#8, 0xC0#8]) plain) = some (.ok, 1#32, [0xC0#8]) := by
  decide
/-- V-F14, V-F15, V-F16 under both policies. -/
theorem test_slipDecode_malformed :
    slipDecode SlipParams.default .reject [0xC0#8, 0xDB#8, 0x41#8, 0x42#8, 0xC0#8] = none ∧
    slipDecode SlipParams.default .drop [0xC0#8, 0xDB#8, 0x41#8, 0x42#8, 0xC0#8] = some [0x42#8] ∧
    slipDecode SlipParams.default .reject [0xC0#8, 0x41#8, 0xDB#8, 0xC0#8] = none ∧
    slipDecode SlipParams.default .drop [0xC0#8, 0x41#8, 0xDB#8, 0xC0#8] = some [0x41#8] ∧
    slipDecode SlipParams.default .drop [0xDB#8, 0xDB#8, 0xDD#8] = some [0xDD#8] ∧
    replyOf (exec (.slipDecode [0x41#8, 0xDB#8]) plain) = some (.decodeError, 0#32, []) := by decide

/-! ## Headers, packets, acknowledgments (V-P) -/

/-- V-P11 and V-P7. -/
theorem test_packHeader :
    replyOf (exec (.packHeader 1#3 20#16) plain) = some (.ok, 0xE0014ED1#32, [0xD1#8, 0x4E#8, 0x01#8, 0xE0#8]) ∧
    header 0#3 4095#12 = [0xC8#8, 0xFE#8, 0xFF#8, 0x3B#8] ∧ header 7#3 0#12 = [0xC7#8, 0x0E#8, 0x00#8, 0x2B#8] := by
  decide
/-- V-P12. -/
theorem test_packHeader_tooLong : replyOf (exec (.packHeader 0#3 4096#16) plain) = some (.payloadTooLong, 0#32, []) := by
  decide
/-- V-P14, V-P15. -/
theorem test_buildPacket :
    replyOf (exec (.buildPacket 1#3 stop) plain) = some (.ok, 12#32, stopFrame) ∧
    replyOf (exec (.buildPacket 0#3 []) plain) =
      some (.ok, 8#32, [0xC0#8, 0xC8#8, 0x0E#8, 0x00#8, 0x2A#8, 0x8E#8, 0x2C#8, 0xC0#8]) := by decide
/-- V-P17. -/
theorem test_buildPacket_tooLong :
    exec (.buildPacket 0#3 (zeros 4096)) plain = .next (raiseError .payloadTooLong plain) := by
  simp [exec, execBuildPacket, maxPayload, zeros_length]
/-- V-P18, V-P21, V-P22. -/
theorem test_parseAck :
    replyOf (exec (.parseAck [0xD1#8, 0x4E#8, 0x01#8, 0xE0#8]) plain) = some (.ok, 2#32, []) ∧
    parseAck [0xC7#8, 0#8, 0#8, 0#8] = some 0#3 ∧ parseAck [0xFF#8, 0xFF#8, 0xFF#8, 0xFF#8, 0xFF#8] = some 7#3 := by
  decide
/-- V-P19. -/
theorem test_parseAck_short :
    replyOf (exec (.parseAck [0xD1#8, 0x4E#8, 0x01#8]) plain) = some (.malformedAck, 0#32, []) := by decide

/-! ## Transport and send (V-T) -/

/-- V-T1. -/
theorem test_txWrite_ok :
    sentOf (exec (.txWrite [0xC0#8, 0xC0#8]) (bench .reject [.ok] [] [])) =
      some (0#3, false, .ok, [0xC0#8, 0xC0#8]) := by decide
/-- V-T2. -/
theorem test_txWrite_failure :
    sentOf (exec (.txWrite [0x01#8, 0x02#8]) (bench .reject [.ioError 1] [] [])) =
      some (0#3, true, .writeFailure, [0x01#8]) := by decide
/-- V-T4. -/
theorem test_rxReadFrame_hunts :
    replyOf (exec (.rxReadFrame 1000#32) (bench .reject []
      [peer [0x00#8, 0xC0#8, 0xC0#8, 0xD1#8, 0x4E#8, 0x01#8, 0xE0#8, 0xC0#8, 0x55#8]] [])) =
      some (.ok, 6#32, [0xC0#8, 0xD1#8, 0x4E#8, 0x01#8, 0xE0#8, 0xC0#8]) := by decide
/-- V-T5: delimiters alone make no frame. -/
theorem test_rxReadFrame_timeout :
    sentOf (exec (.rxReadFrame 1000#32) { bench .reject [] [peer [0xC0#8, 0xC0#8]] [] with seq := 3#3 }) =
      some (3#3, false, .readTimeout, []) := by decide
/-- V-T8, V-T13 (the counter wraps before it is used), V-T9, V-T10, V-T12 (a frame that does not decode still counts as
one read). -/
theorem test_sendPacket_sends :
    sentOf (exec (.sendPacket stop) (bench .reject [.ok] [ackRead] [])) = some (1#3, false, .ok, stopFrame) ∧
    sentOf (exec (.sendPacket stop) { bench .reject [.ok] [ackRead] [] with seq := 7#3 }) =
      some (0#3, false, .ok,
        [0xC0#8, 0xC8#8, 0x4E#8, 0x00#8, 0xEA#8, 0x05#8, 0x00#8, 0x00#8, 0x00#8, 0x36#8, 0x0A#8, 0xC0#8]) ∧
    sentOf (exec (.sendPacket stop) (bench .reject [.ok] [peer []] [])) = some (0#3, false, .ok, stopFrame) ∧
    sentOf (exec (.sendPacket stop) (bench .reject [.ok] [{ bytes := [], ending := .ioError }] [])) =
      some (0#3, false, .ok, stopFrame) ∧
    sentOf (exec (.sendPacket stop)
      (bench .reject [.ok] [peer [0xC0#8, 0xDB#8, 0x41#8, 0x42#8, 0x43#8, 0x44#8, 0xC0#8]] [])) =
      some (1#3, false, .ok, stopFrame) := by
  refine ⟨by decide, by decide, by decide, by decide, by decide⟩
/-- V-T14, V-T17. -/
theorem test_sendPacket_errors :
    sentOf (exec (.sendPacket stop) (bench .reject [.ioError 3] [] [])) =
      some (1#3, true, .writeFailure, [0xC0#8, 0xD1#8, 0x4E#8]) ∧
    exec (.sendPacket (zeros 4096)) failed = .next (raiseError .sessionFailed failed) := by
  refine ⟨by decide, ?_⟩
  simp [exec, execSendPacket, sendPacket, failed]
/-- V-T19, V-T20. -/
theorem test_statusRead :
    replyOf (exec .statusRead failed) = some (.ok, 0xFFFF0019#32, []) ∧
    replyOf (exec .statusRead { failed with result := .sessionFailed }) = some (.ok, 0xFFFF0089#32, []) := by decide
/-- V-T21. -/
theorem test_sessionReset :
    sentOf (exec .sessionReset { failed with txlog := [0xC0#8] }) = some (0#3, false, .ok, [0xC0#8]) := by decide

/-! ## DFU payloads (P2, steps 2 to 5) -/

/-- The bench before P2's send number `k`. -/
def p2Bench (k : BitVec 3) : State := { bench .reject [.ok] [ackRead] [] with seq := k - 1#3 }

theorem test_dfuStart :
    sentOf (exec (.dfuStart ([4#8, 0#8, 0#8, 0#8] ++ List.replicate 8 0#8 ++ [5#8, 0#8, 0#8, 0#8])) (p2Bench 1#3)) =
      some (1#3, false, .ok,
        [0xC0#8, 0xD1#8, 0x4E#8, 0x01#8, 0xE0#8, 3#8, 0#8, 0#8, 0#8, 4#8, 0#8, 0#8, 0#8] ++ List.replicate 8 0#8 ++
          [5#8, 0#8, 0#8, 0#8, 0x2E#8, 0x13#8, 0xC0#8]) := by decide +kernel
theorem test_dfuInit :
    sentOf (exec (.dfuInit [0x11#8, 0x22#8, 0x33#8, 0x44#8, 0#8, 0#8]) (p2Bench 2#3)) =
      some (2#3, false, .ok,
        [0xC0#8, 0xDA#8, 0xAE#8, 0x00#8, 0x78#8, 1#8, 0#8, 0#8, 0#8, 0x11#8, 0x22#8, 0x33#8, 0x44#8, 0#8, 0#8,
          0x1E#8, 0x01#8, 0xC0#8]) := by decide +kernel
theorem test_dfuData :
    sentOf (exec (.dfuData [0xC0#8, 0x01#8, 0xDB#8, 0x02#8, 0x03#8]) (p2Bench 3#3)) =
      some (3#3, false, .ok,
        [0xC0#8, 0xE3#8, 0x9E#8, 0x00#8, 0x7F#8, 4#8, 0#8, 0#8, 0#8, 0xDB#8, 0xDC#8, 0x01#8, 0xDB#8, 0xDD#8, 0x02#8,
          0x03#8, 0x61#8, 0x3B#8, 0xC0#8]) := by decide
theorem test_dfuStop :
    sentOf (exec (.dfuStop []) (p2Bench 4#3)) =
      some (4#3, false, .ok,
        [0xC0#8, 0xEC#8, 0x4E#8, 0x00#8, 0xC6#8, 5#8, 0#8, 0#8, 0#8, 0xAC#8, 0xFD#8, 0xC0#8]) := by decide

/-! ## The host's numbers (V-H) and lines (R75, R76) -/

/-- V-H1, V-H10. -/
theorem test_host_payloads :
    startPayload 1500 = [3#8, 0#8, 0#8, 0#8, 4#8, 0#8, 0#8, 0#8, 0#8, 0#8, 0#8, 0#8, 0#8, 0#8, 0#8, 0#8, 0xDC#8, 5#8, 0#8, 0#8] ∧
    initPayload [0x11#8, 0x22#8, 0x33#8, 0x44#8] = [1#8, 0#8, 0#8, 0#8, 0x11#8, 0x22#8, 0x33#8, 0x44#8, 0#8, 0#8] := by
  decide
/-- V-H6. -/
theorem test_host_erase_wait :
    eraseMs 1500 = 1000 ∧ eraseMs 4097 = 1000 ∧ erasePages 4097 = 2 ∧ eraseMs 49152 = 1080 := by decide
/-- V-H7: N = 8, 9 and 17. -/
theorem test_host_page_delays :
    (List.range 8).filter (pageDelayAfter 8) = [] ∧ (List.range 9).filter (pageDelayAfter 9) = [7] ∧
    (List.range 17).filter (pageDelayAfter 17) = [7, 15] := by decide
/-- V-H4, V-H8, V-H9. -/
theorem test_host_progress :
    progressValues 1500 = [0, 2, 5, 8, 35, 63, 90, 95, 100] ∧ progressValues 1 = [0, 2, 5, 8, 90, 95, 100] ∧
    progressValues 4096 = [0, 2, 5, 8, 18, 29, 39, 49, 59, 70, 80, 90, 95, 100] := by decide
/-- S10, V-H5: after a write failure at the second Data send the host records chunk 1 and issues nothing more; the same
failure at the Init send records none. -/
theorem test_host_stops_on_write_failure :
    hostReaction (.transferringData 1) (sendItem stop) HostRecord.start
      (raiseError .writeFailure { failed with pending := [.hardwareReset] }) =
      ({ phase := .failed, failedChunk := some 1 }, raiseError .writeFailure failed) ∧
    (hostReaction .sendingInit (sendItem stop) HostRecord.start (raiseError .writeFailure failed)).1 =
      { phase := .failed, failedChunk := none } := ⟨rfl, rfl⟩
/-- R208: after a send that completes with `OK`, whatever its read did, the host goes on. -/
theorem test_host_goes_on_after_ok :
    hostReaction (.transferringData 1) (sendItem stop) HostRecord.start (complete .ok 0#32 [] plain) =
      ({ phase := .transferringData 1, failedChunk := none }, complete .ok 0#32 [] plain) := rfl
/-- R209: a transfer cancelled after its Start packet is not `complete` (note 24). -/
theorem test_host_cancelled :
    ∃ t, conductTransfer ((transferPlan [0xC0#8] []).take 2) HostRecord.start (withItems []) =
      .next ({ phase := .starting, failedChunk := none }, t) ∧ t.seq = 1#3 := ⟨_, rfl, rfl⟩
/-- R75's example `BUILD_PACKET seq=1 05000000`. -/
theorem test_assemble_buildPacket :
    assembleLine (opName .buildPacket ++ [' ', 's', 'e', 'q', '=', '1', ' ', '0', '5', '0', '0', '0', '0', '0', '0']) =
      some (.command 0x0121#16 stop) := by decide +kernel
/-- R76's `READ_ACK`. -/
theorem test_assemble_readAck :
    assembleLine ['R', 'E', 'A', 'D', '_', 'A', 'C', 'K'] =
      some (.command 0x0031#16 [0xE8#8, 0x03#8, 0x00#8, 0x00#8]) := by decide +kernel

/-! ## Witnesses: for each obligation with hypotheses, a concrete state and operands that meet them together -/

theorem test_witness_DecodeInvertsEncode :
    wellFormed (maxData (params .drop)) (.txWrite (zeros 8204)) = true ∧
    wellFormed (maxData (params .drop)) (.dfuData (zeros 8200)) = true := by
  simp [wellFormed, zeros_length, params, maxData, minMaxData]

theorem test_witness_EncodeInvertsDecode :
    decode (maxData (params .drop)) (.command 0x0520#16 [0xFF#8, 0x0F#8]) = .ok (.packHeader 5#3 4095#16) := by decide

theorem test_witness_StepRunsDecodedInstruction :
    ParametersLegal (withItems [.command 0x0721#16 stop]) ∧
    (withItems [.command 0x0721#16 stop]).pending = .command 0x0721#16 stop :: [] ∧
    decode (maxData (withItems [.command 0x0721#16 stop]).cfg) (.command 0x0721#16 stop) =
      .ok (.buildPacket 7#3 stop) := by
  unfold ParametersLegal; decide

/-- A failing command: one byte more than `MAX_DATA`. -/
theorem test_witness_IllegalCommand_fails :
    ParametersLegal (withItems [.command 0x0002#16 (zeros 8205)]) ∧
    FailsR69 (maxData (withItems [.command 0x0002#16 (zeros 8205)]).cfg) 0x0002#16 (zeros 8205) := by
  refine ⟨by unfold ParametersLegal; decide, ?_⟩
  simp [FailsR69, zeros_length, withItems, bench, params, maxData, minMaxData]

/-- A passing one: exactly `MAX_DATA` bytes. -/
theorem test_witness_IllegalCommand_passes :
    ParametersLegal (withItems [.command 0x0002#16 (zeros 8204)]) ∧
    ¬ FailsR69 (maxData (withItems [.command 0x0002#16 (zeros 8204)]).cfg) 0x0002#16 (zeros 8204) := by
  refine ⟨by unfold ParametersLegal; decide, ?_⟩
  simp [FailsR69, zeros_length, withItems, bench, params, maxData, minMaxData]

theorem test_witness_EveryStepCompletes :
    ParametersLegal (withItems [.payload stop]) ∧
    ∀ (bytes : Bytes) (rest : List HostItem), (withItems [.payload stop]).pending = .payload bytes :: rest →
      ∃ tag ∈ [1#8, 3#8, 4#8, 5#8], ∃ more, bytes = [tag, 0#8, 0#8, 0#8] ++ more := by
  refine ⟨by unfold ParametersLegal; decide, ?_⟩
  rintro bytes rest h
  cases h
  exact ⟨5#8, by decide, [], rfl⟩

/-- The undefined opcodes next to the defined ones: 0, 2, 6 and 2^32 − 1. -/
theorem test_witness_UndefinedDfuOpcode :
    ParametersLegal (withItems [.payload [2#8, 0#8, 0#8, 0#8]]) ∧
    (withItems [.payload [2#8, 0#8, 0#8, 0#8]]).pending = .payload (2#8 :: 0#8 :: 0#8 :: 0#8 :: []) :: [] ∧
    (∀ d : Byte, d ∈ [0#8, 2#8, 6#8] →
      d.toNat + 256 * (0#8).toNat + 65536 * (0#8).toNat + 16777216 * (0#8).toNat ∉ [1, 3, 4, 5]) ∧
    (255#8).toNat + 256 * (255#8).toNat + 65536 * (255#8).toNat + 16777216 * (255#8).toNat ∉ [1, 3, 4, 5] := by
  unfold ParametersLegal; decide

/-- The second clause: payloads of no byte and of three. -/
theorem test_witness_UndefinedDfuOpcode_short :
    ParametersLegal (withItems [.payload [1#8, 0#8, 0#8]]) ∧
    (withItems [.payload [1#8, 0#8, 0#8]]).pending = .payload [1#8, 0#8, 0#8] :: [] ∧
    [1#8, 0#8, 0#8].length < 4 ∧ ([] : Bytes).length < 4 := by
  unfold ParametersLegal; decide

/-- One parameter set for each constraint of R10. -/
theorem test_witness_IllegalConfiguration :
    slipLegal { SlipParams.default with slipEsc := 0xC0#8 } = false ∧
    slipLegal { SlipParams.default with slipEscEsc := 0xDC#8 } = false ∧
    slipLegal { SlipParams.default with slipEscEnd := 0xC0#8 } = false ∧
    slipLegal { SlipParams.default with slipEscEsc := 0xC0#8 } = false ∧
    step { plain with cfg := { params .reject with slip := { SlipParams.default with slipEsc := 0xC0#8 } } } =
      .refused .illegalConfiguration := ⟨by decide, by decide, by decide, by decide, rfl⟩

theorem test_witness_IdleBlock :
    ParametersLegal plain ∧ plain.pending = [] ∧ (withItems [.wait 300]).pending = .wait 300 :: [] := by
  unfold ParametersLegal; decide

theorem test_witness_ResetValues :
    ParametersLegal { failed with pending := [.hardwareReset, .command 0x0051#16 []] } ∧
    decode 8204 (.command 0x0051#16 []) = .ok .sessionReset := by
  unfold ParametersLegal; decide

theorem test_witness_StepKeepsSoundness :
    Sound (withItems [.command 0x0040#16 stop]) ∧
    ∃ t, step (withItems [.command 0x0040#16 stop]) = .next t ∧ t.seq = 1#3 := by
  refine ⟨⟨?_, rfl, ?_, by unfold ParametersLegal; decide⟩, _, rfl, by decide⟩
  · intro r h
    cases h
  · rintro (h | h) <;> cases h

/-- Each field of the statement does change in some step: `CRC`, `SEQ` and `TXLOG`. -/
theorem test_witness_OnlyListedCommandsWrite_changes :
    (∃ t, step (withItems [.command 0x0003#16 [0#8]]) = .next t ∧ t.crc ≠ plain.crc) ∧
    (∃ t, step (withItems [.command 0x0040#16 stop]) = .next t ∧ t.seq ≠ plain.seq ∧ t.txlog ≠ plain.txlog) :=
  ⟨⟨_, rfl, by decide⟩, ⟨_, rfl, by decide⟩⟩

/-- `WFAIL` is set and cleared in some step. -/
theorem test_witness_OnlyListedCommandsWrite_wfail :
    (∃ t, step (bench .reject [.ioError 0] [] [.command 0x0030#16 stop]) = .next t ∧ t.wfail = true) ∧
    (∃ t, step { failed with pending := [.command 0x0051#16 []] } = .next t ∧ t.wfail = false) :=
  ⟨⟨_, rfl, by decide⟩, ⟨_, rfl, by decide⟩⟩

theorem test_witness_WireHistoryOnlyGrows :
    ∃ t, run 1 (withItems [.command 0x0030#16 stop]) = .next t ∧ t.txlog = stop := ⟨_, rfl, by decide⟩

theorem test_witness_FailedSessionStaysSilent :
    failed.wfail = true ∧
    (∀ h ∈ ({ failed with pending := [.command 0x0040#16 stop, .hardwareReset] } : State).pending.take 1,
      startsSession h = false) ∧
    ∃ t, run 1 { failed with pending := [.command 0x0040#16 stop, .hardwareReset] } = .next t ∧ t.wfail = true :=
  ⟨rfl, by decide, _, rfl, rfl⟩

theorem test_witness_FailedSessionRefusesWrites :
    failed.wfail = true ∧ (∃ data, Instr.txWrite [] = .txWrite data) ∧
    (∃ p, sendsPayload (.sendPacket (zeros 4096)) = some p) := ⟨rfl, ⟨_, rfl⟩, ⟨_, rfl⟩⟩

theorem test_witness_ErrorsAreCompletedPrecisely :
    ReceiverIdle plain ∧
    (∃ t, exec (.parseAck []) plain = .next t ∧ ∃ r, t.reply = some r ∧ r.code = .malformedAck) ∧
    (∃ t, exec (.sendPacket stop) (bench .reject [.ioError 12] [] []) = .next t ∧
      ∃ r, t.reply = some r ∧ r.code = .writeFailure) :=
  ⟨rfl, ⟨_, rfl, _, rfl, rfl⟩, ⟨_, rfl, _, rfl, rfl⟩⟩

theorem test_witness_ResultHoldsTheReturnedCode :
    (∃ t, exec (.rxReadFrame 0#32) (bench .reject [] [peer []] []) = .next t ∧ t.result = .readTimeout) ∧
    (∃ t, exec .statusRead failed = .next t ∧ t.result = .writeFailure) := ⟨⟨_, rfl, rfl⟩, ⟨_, rfl, rfl⟩⟩

theorem test_witness_PureCommandsRepeat :
    repeatable (.slipDecode [0xDB#8]) = true ∧ ∃ t, exec (.slipDecode [0xDB#8]) plain = .next t ∧ t.result = .decodeError :=
  ⟨rfl, _, rfl, rfl⟩

/-- One full piece of `MAX_DATA` bytes and an empty one. -/
theorem test_witness_StreamingGivesTheChecksum :
    let items : List HostItem :=
      .command 0x0001#16 [] :: ([zeros 8204, []].map fun d => .command 0x0002#16 d) ++ [.hardwareReset]
    ParametersLegal (withItems items) ∧ (∀ d ∈ [zeros 8204, []], d.length ≤ maxData (withItems items).cfg) ∧
    (withItems items).pending = items := by
  refine ⟨rfl, ?_, rfl⟩
  simp [zeros_length, withItems, bench, params, maxData, minMaxData]

/-- The defaults, the SLIP bytes of the framer statements (BuiltFrame…, SlipRoundTrip, EncodedFrameShape). -/
theorem test_witness_EncodedFrameShape :
    slipLegal SlipParams.default = true ∧ SlipParams.default.slipEscEnd ≠ SlipParams.default.slipEsc ∧
    SlipParams.default.slipEscEsc ≠ SlipParams.default.slipEsc ∧
    (slipEncode SlipParams.default [0xDB#8])[1]? = some SlipParams.default.slipEsc := by decide

theorem test_witness_SlipRoundTrip : slipLegal SlipParams.default = true ∧ ParametersLegal plain := by
  unfold ParametersLegal; decide

theorem test_witness_SlipDecodeCompletes :
    (bench .drop [] [] []).cfg.escPolicy = .drop ∧ plain.cfg.slip.slipEsc ∉ [0xC0#8, 0xDC#8, 0xC0#8] := by decide

/-- Both sides of the limit. -/
theorem test_witness_PackHeaderReturnsTheHeader : (4095#16).toNat ≤ 4095 ∧ 4095 < (4096#16).toNat := by decide

/-- Both sides of the limit (also SendPacketErrors, SendPacketFollowsItsSteps). -/
theorem test_witness_BuildPacketReturnsTheFrame : (zeros 4095).length ≤ 4095 ∧ 4095 < (zeros 4096).length := by
  simp [zeros_length]

theorem test_witness_BuiltFrameDecodesToTheRawPacket :
    slipLegal SlipParams.default = true ∧ (zeros 4095).length ≤ 4095 := by
  exact ⟨by decide, by simp [zeros_length]⟩

theorem test_witness_ParseAckReadsTheAckField : [0xD1#8, 0x4E#8, 0x01#8].length < 4 ∧ 4 ≤ stop.length := by decide

theorem test_witness_OwnPacketParsesToItsAck : ParametersLegal plain ∧ (zeros 4095).length ≤ 4095 := by
  exact ⟨by unfold ParametersLegal; decide, by simp [zeros_length]⟩

/-- The write succeeds, fails before any byte, and fails after all of them. -/
theorem test_witness_TxWriteFollowsTheDraw :
    plain.wfail = false ∧ (bench .reject [.ok] [] []).link.writes = .ok :: [] ∧
    (bench .reject [.ioError 0] [] []).link.writes = .ioError 0 :: [] ∧ 0 ≤ stop.length ∧
    (bench .reject [.ioError 4] [] []).link.writes = .ioError 4 :: [] ∧ 4 ≤ stop.length := by decide

theorem test_witness_TxWriteCompletes : plain.wfail = false := rfl

/-- A frame of one byte, the shortest; no frame and a timeout; no frame and an I/O error. -/
theorem test_witness_RxReadFrameFollowsTheDraw :
    (bench .reject [] [peer [0xC0#8, 0x41#8, 0xC0#8]] []).link.reads = peer [0xC0#8, 0x41#8, 0xC0#8] :: [] ∧
    receive 0xC0#8 Rx.idle [0xC0#8, 0x41#8, 0xC0#8] = some [0xC0#8, 0x41#8, 0xC0#8] ∧
    receive 0xC0#8 Rx.idle [0x41#8, 0xC0#8, 0xC0#8, 0x41#8] = none ∧
    (peer [0x41#8, 0xC0#8, 0xC0#8, 0x41#8]).ending = .timeout ∧
    ({ bytes := [], ending := .ioError } : ReadDraw).ending = .ioError := by decide

/-- A send that is written and drained; a send whose write fails after all twelve bytes of the frame. -/
theorem test_witness_SendPacketFollowsItsSteps :
    sendsPayload (.sendPacket stop) = some stop ∧ sendsPayload (.dfuStop []) = some stop ∧ plain.wfail = false ∧
    stop.length ≤ 4095 ∧
    (withItems []).link.writes = .ok :: [] ∧ (withItems []).link.reads = ackRead :: [] ∧
    (bench .reject [.ioError 12] [] []).link.writes = .ioError 12 :: [] ∧
    12 ≤ (packet plain.cfg.slip (plain.seq + 1#3) stop).length := by decide

theorem test_witness_SendPacketErrors :
    sendsPayload (.dfuData (zeros 4092)) = some ([4#8, 0#8, 0#8, 0#8] ++ zeros 4092) ∧ plain.wfail = false ∧
    4095 < ([4#8, 0#8, 0#8, 0#8] ++ zeros 4092).length ∧
    ([4#8, 0#8, 0#8, 0#8] ++ zeros 4091).length ≤ 4095 :=
  ⟨rfl, rfl, by rw [List.length_append, zeros_length]; decide, by rw [List.length_append, zeros_length]; decide⟩

/-- Eight sends, so that the counter wraps. -/
theorem test_witness_SequenceCounterLaw :
    let s := bench .reject (List.replicate 8 .ok ++ []) (List.replicate 8 ackRead ++ [])
      (((List.replicate 8 stop).map fun p => .command 0x0040#16 p) ++ [])
    ParametersLegal s ∧ s.seq = 0#3 ∧ s.wfail = false ∧ (∀ p ∈ List.replicate 8 stop, p.length ≤ 4095) ∧
    s.pending = ((List.replicate 8 stop).map fun p => .command 0x0040#16 p) ++ [] ∧
    s.link.writes = List.replicate (List.replicate 8 stop).length .ok ++ [] ∧
    s.link.reads = List.replicate 8 ackRead ++ [] ∧
    (List.replicate 8 ackRead).length = (List.replicate 8 stop).length ∧
    (∀ d ∈ List.replicate 8 ackRead, (receive s.cfg.slip.slipEnd Rx.idle d.bytes).isSome = true) :=
  ⟨rfl, rfl, rfl, by decide, rfl, rfl, rfl, rfl, by decide⟩

/-- The second clause: a read that completes no frame. -/
theorem test_witness_SequenceCounterLaw_reset :
    let s := bench .reject [.ok] [peer [0xC0#8]] []
    s.wfail = false ∧ stop.length ≤ 4095 ∧ s.link.writes = .ok :: [] ∧ s.link.reads = peer [0xC0#8] :: [] ∧
    receive s.cfg.slip.slipEnd Rx.idle (peer [0xC0#8]).bytes = none := ⟨rfl, by decide, rfl, rfl, by decide⟩

/-- One whole chunk and one byte of a second. -/
theorem test_witness_ChunksRebuildTheImage :
    0 + 1 < chunkCount (zeros 513).length ∧ 1 + 1 = chunkCount (zeros 513).length := by
  rw [zeros_length]; decide

/-- A one-byte image: four packets. -/
theorem test_witness_TransferSendsEveryPacketInOrder :
    let s := bench .reject (List.replicate 4 .ok ++ []) (List.replicate 3 ackRead ++ peer [] :: [])
      (transferProgram [0xC0#8] [] ++ [])
    ParametersLegal s ∧ transferable [0xC0#8] [] = true ∧ s.pending = transferProgram [0xC0#8] [] ++ [] ∧
    s.link.writes = List.replicate (chunkCount [0xC0#8].length + 3) .ok ++ [] ∧
    s.link.reads = List.replicate 3 ackRead ++ peer [] :: [] ∧
    (List.replicate 3 ackRead).length = chunkCount [0xC0#8].length + 2 ∧
    (∀ d ∈ List.replicate 3 ackRead, (receive s.cfg.slip.slipEnd Rx.idle d.bytes).isSome = true) :=
  ⟨rfl, by decide, rfl, rfl, rfl, by decide, by decide⟩

/-- The longest init blob; one byte over a page, so that two pages are begun. -/
theorem test_witness_HostPayloadLengths :
    transferable (zeros 4097) (zeros 4089) = true ∧ (zeros 4097).length ≤ 4096 * 2 ∧
    4096 * 1 < (zeros 4097).length := by
  simp [transferable, zeros_length]

theorem test_witness_HostPayloadContents : transferable (zeros 1500) [0x11#8, 0x22#8, 0x33#8, 0x44#8] = true := by
  simp [transferable, zeros_length]

/-- No chunk; one chunk, with its two values of the ramp. -/
theorem test_witness_ProgressNeverFalls :
    chunkCount 0 = 0 ∧ progressValues 0 = [0, 2, 5] ++ [] ++ [95, 100] ∧
    0 < chunkCount 1 ∧ progressValues 1 = [0, 2, 5] ++ [8, 90] ++ [95, 100] := by decide

/-- A one-byte image whose Start (n = 0), Init (1), Data (2) or Stop (3) write fails. -/
def failingAt (n : Nat) : State :=
  bench .reject (List.replicate n .ok ++ .ioError 1 :: []) (List.replicate n ackRead ++ []) []

theorem test_witness_FailingChunkIsRecorded :
    ParametersLegal (failingAt 2) ∧ transferable [0xC0#8] [] = true ∧
    (∀ n ∈ [0, 1, 2, 3], n < chunkCount [0xC0#8].length + 3) ∧
    (failingAt 2).link.writes = List.replicate 2 .ok ++ .ioError 1 :: [] ∧
    (failingAt 2).link.reads = List.replicate 2 ackRead ++ [] ∧ (List.replicate 2 ackRead).length = 2 ∧
    (∀ d ∈ List.replicate 2 ackRead, (receive (failingAt 2).cfg.slip.slipEnd Rx.idle d.bytes).isSome = true) :=
  ⟨rfl, by decide, by decide, rfl, rfl, rfl, by decide⟩

theorem test_witness_UnfailedTransferCompletes :
    let s := bench .reject (List.replicate 4 .ok ++ []) [] []
    ParametersLegal s ∧ transferable [0xC0#8] [] = true ∧ s.pending = [] ∧
    s.link.writes = List.replicate (chunkCount [0xC0#8].length + 3) .ok ++ [] := ⟨rfl, by decide, rfl, rfl⟩

theorem test_witness_WrittenCommandAssembles :
    (usesSq .packHeader = false → (7#3 : BitVec 3) = 0#3) ∧ (usesSq .crcInit = false → (0#3 : BitVec 3) = 0#3) := by
  decide

end Sys2Proof.Tests
end

section
/-! Refusal of a parameter set that breaks spec/00_scope.md R10. -/

namespace Sys2Proof.Proofs

open Sys2Proof.Machine Sys2Proof.Laws

/-- The check of R10 fails exactly when one of its four constraints is broken. -/
theorem slipLegal_eq_false_iff (p : SlipParams) :
    slipLegal p = false ↔
      p.slipEnd = p.slipEsc ∨ p.slipEscEnd = p.slipEscEsc ∨
        p.slipEscEnd = p.slipEnd ∨ p.slipEscEsc = p.slipEnd := by
  simp [slipLegal, ← Bool.not_eq_true, imp_iff_not_or, or_assoc]

/-- The check comes before the fetch looks at what is pending (note 17). -/
theorem step_of_slipLegal_false (s : State) (hbad : slipLegal s.cfg.slip = false) :
    step s = .refused .illegalConfiguration := by
  rcases step_cases s with ⟨-, hrefused⟩ | ⟨hlegal, -⟩
  · exact hrefused
  · simp [hbad] at hlegal

/-- Settles O8: a broken constraint fails the check of R10, and a failed check refuses the step. -/
theorem illegalConfigurationIsRefused : Obligations.IllegalConfigurationIsRefused := by
  intro s hbroken
  exact step_of_slipLegal_false s ((slipLegal_eq_false_iff s.cfg.slip).mpr hbroken)

end Sys2Proof.Proofs
end

section
/-! What a host item that decodes to an instruction is: the encoding of that instruction (spec/30_encoding.md R66, R70,
R74). -/

namespace Sys2Proof.Proofs

open Sys2Proof.Machine Sys2Proof.Laws

/-- The three fields of R66 make up the whole command word. -/
theorem fields_append (w : U16) : (reservedField w ++ sqField w ++ opField w : BitVec (5 + 3 + 8)) = w := by
  apply BitVec.eq_of_getLsbD_eq
  intro i hi
  simp only [reservedField, sqField, opField, BitVec.getLsbD_append, BitVec.getLsbD_extractLsb']
  split_ifs with hop hsq
  · simp [hop]
  · have hindex : 8 + (i - 8) = i := by omega
    simp [hsq, hindex]
  · have hindex : 11 + (i - 8 - 3) = i := by omega
    have hreserved : i - 8 - 3 < 5 := by omega
    simp [hreserved, hindex]

/-- A word that passes the first two checks of R69 is the command word of its `OP` and `SQ`. -/
theorem commandWord_of_fields (w : U16) (o : Op) (hreserved : reservedField w = 0#5)
    (hop : opOfCode (opField w) = some o) : commandWord o (sqField w) = w := by
  rw [commandWord, opCode_of_opOfCode _ _ hop, ← hreserved]
  exact fields_append w

/-- Writing back the two bytes of a little-endian number. -/
theorem le16_ofLe16 (d0 d1 : Byte) : le16 (ofLe16 d0 d1) = [d0, d1] := by
  simp only [le16, ofLe16, List.cons.injEq, and_true]
  exact ⟨BitVec.extractLsb'_append_eq_right, BitVec.extractLsb'_append_eq_left⟩

/-- Writing back the four bytes of a little-endian number. -/
theorem le32_ofLe32 (d0 d1 d2 d3 : Byte) : le32 (ofLe32 d0 d1 d2 d3) = [d0, d1, d2, d3] := by
  have hvalue := ofLe32_toNat d0 d1 d2 d3
  simp only [le32, List.cons.injEq, and_true, ← BitVec.toNat_inj, BitVec.extractLsb'_toNat,
    Nat.shiftRight_eq_div_pow, hvalue]
  omega

/-- What a command that passes the five checks of R69 has passed. -/
theorem decodeCommand_ok {limit : Nat} {w : U16} {data : Bytes} {i : Instr}
    (hdecode : decodeCommand limit w data = .ok i) :
    ∃ o, reservedField w = 0#5 ∧ opOfCode (opField w) = some o ∧ (sqField w = 0#3 ∨ usesSq o = true) ∧
      overLimit limit data.length = false ∧ assembleOperands o (sqField w) data = some i := by
  unfold decodeCommand at hdecode
  split at hdecode
  · cases hdecode
  next hreserved =>
  split at hdecode
  · cases hdecode
  next o hop =>
  split at hdecode
  · cases hdecode
  next hsq =>
  split at hdecode
  · cases hdecode
  next hlimit =>
  split at hdecode
  · cases hdecode
  next j hoperands =>
  cases hdecode
  refine ⟨o, not_not.mp hreserved, hop, ?_, by simpa using hlimit, hoperands⟩
  rw [not_and_or, not_not, Bool.not_eq_false] at hsq
  exact hsq

/-- What a payload that is read by its DFU opcode has passed (R74). -/
theorem decodePayload_ok {limit : Nat} {bytes : Bytes} {i : Instr} (hdecode : decodePayload limit bytes = .ok i) :
    ∃ o rest, bytes = dfuPayload o rest ∧ overLimit limit (4 + rest.length) = false ∧ i = dfuInstr o rest := by
  unfold decodePayload at hdecode
  split at hdecode
  · next d0 d1 d2 d3 rest =>
    split at hdecode
    · cases hdecode
    next o htag =>
    split at hdecode
    · cases hdecode
    next hlimit =>
    cases hdecode
    refine ⟨o, rest, ?_, by simpa using hlimit, rfl⟩
    rw [dfuPayload, dfuCode_of_dfuOfCode _ _ htag, le32_ofLe32]
    rfl
  · cases hdecode

/-- The operands put together are taken apart again by the encoder (R70). -/
theorem encode_of_assembleOperands {o : Op} {sq : BitVec 3} {data : Bytes} {i : Instr}
    (hsq : sq = 0#3 ∨ usesSq o = true) (hoperands : assembleOperands o sq data = some i) :
    encode i = .command (commandWord o sq) data := by
  cases o
  case packHeader =>
    simp only [assembleOperands] at hoperands
    split at hoperands
    · next d0 d1 => cases hoperands; rw [encode, le16_ofLe16]
    · cases hoperands
  case buildPacket => cases hoperands; rfl
  all_goals obtain rfl : sq = 0#3 := hsq.resolve_right (by simp [usesSq])
  case rxReadFrame =>
    simp only [assembleOperands] at hoperands
    split at hoperands
    · next d0 d1 d2 d3 => cases hoperands; rw [encode, le32_ofLe32]
    · cases hoperands
  case crcInit | statusRead | sessionReset =>
    obtain ⟨rfl, rfl⟩ : data = [] ∧ _ = i := by simpa [assembleOperands] using hoperands
    rfl
  all_goals cases hoperands; rfl

/-- A host item that decodes to an instruction is the encoding of that instruction. -/
theorem encode_of_decode {limit : Nat} {h : HostItem} {i : Instr} (hdecode : decode limit h = .ok i) :
    encode i = h := by
  cases h with
  | command w data =>
    obtain ⟨o, hreserved, hop, hsq, -, hoperands⟩ := decodeCommand_ok hdecode
    rw [encode_of_assembleOperands hsq hoperands, commandWord_of_fields w o hreserved hop]
  | payload bytes =>
    obtain ⟨o, rest, rfl, -, rfl⟩ := decodePayload_ok hdecode
    cases o <;> rfl
  | wait ms => cases hdecode
  | hardwareReset => cases hdecode

end Sys2Proof.Proofs
end

section
/-! What one step does, seen from the next state it answers (spec/10_state.md R21, spec/20_memory.md R46). -/

namespace Sys2Proof.Proofs

open Sys2Proof.Machine Sys2Proof.Laws

/-- Settles O3: of the ways in which a step takes an item, the others take one that does not decode. -/
theorem stepRunsDecodedInstruction : Obligations.StepRunsDecodedInstruction := by
  intro s h rest i hlegal hpending hdecode
  rcases step_cases s with ⟨hbad, -⟩ | ⟨-, ⟨hidle, -⟩ | ⟨h', rest', hpending', htaken⟩⟩
  · rw [ParametersLegal, hbad] at hlegal
    cases hlegal
  · rw [hpending] at hidle
    cases hidle
  rw [hpending] at hpending'
  cases hpending'
  rcases htaken with ⟨ms, rfl, -⟩ | ⟨rfl, -⟩ | ⟨j, hj, hstep⟩ | ⟨why, herror, -⟩ | ⟨-, herror, -⟩
  · cases hdecode
  · cases hdecode
  · rw [hdecode] at hj
    cases hj
    exact hstep
  · rw [hdecode] at herror
    cases herror
  · rw [hdecode] at herror
    cases herror

/-- A step that answers a next state: the block is idle, or one item is taken, which is a wait, hardware reset, an
instruction that runs, or a command completed as illegal. -/
theorem step_next_cases {s t : State} (hstep : step s = .next t) :
    (s.pending = [] ∧ t = s) ∨
    ∃ h rest, s.pending = h :: rest ∧
      ((∃ ms, h = .wait ms ∧ t = { s with pending := rest }) ∨
       (h = .hardwareReset ∧ t = hardwareReset { s with pending := rest }) ∨
       (∃ i, decode (maxData s.cfg) h = .ok i ∧ exec i { s with pending := rest } = .next t) ∨
       (∃ why, decode (maxData s.cfg) h = .error why ∧ t = illegalCommand { s with pending := rest })) := by
  rcases step_cases s with ⟨-, hnext⟩ | ⟨-, ⟨hidle, hnext⟩ | ⟨h, rest, hpending, htaken⟩⟩
  · rw [hstep] at hnext
    cases hnext
  · rw [hstep] at hnext
    cases hnext
    exact .inl ⟨hidle, rfl⟩
  refine .inr ⟨h, rest, hpending, ?_⟩
  rcases htaken with
    ⟨ms, hwait, hnext⟩ | ⟨hreset, hnext⟩ | ⟨i, hdecode, hnext⟩ | ⟨why, herror, -, hnext⟩ | ⟨-, -, hnext⟩
  all_goals rw [hstep] at hnext
  · cases hnext
    exact .inl ⟨ms, hwait, rfl⟩
  · cases hnext
    exact .inr (.inl ⟨hreset, rfl⟩)
  · exact .inr (.inr (.inl ⟨i, hdecode, hnext.symm⟩))
  · cases hnext
    exact .inr (.inr (.inr ⟨why, herror, rfl⟩))
  · cases hnext

/-- An instruction that answers `t`: a send, TX_WRITE, RX_READ_FRAME, SESSION_RESET, STATUS_READ, or a pure completion,
which changes `CRC` only for the three checksum commands. -/
theorem exec_next_cases {i : Instr} {s t : State} (hexec : exec i s = .next t) :
    (∃ payload, sendsPayload i = some payload ∧ t = sendPacket payload s) ∨
    (∃ data, i = .txWrite data) ∨ (∃ u, i = .rxReadFrame u) ∨
    (i = .sessionReset ∧ t = complete .ok 0#32 [] (resetRegisters s)) ∨
    (i = .statusRead ∧ t = { s with reply := some { code := .ok, value := statusWord s, out := [] } }) ∨
    (PureCompletion s t ∧ (t.crc ≠ s.crc → i = .crcInit ∨ (∃ d, i = .crcUpdate d) ∨ ∃ d, i = .checksum d)) := by
  rcases exec_cases i s with ⟨payload, hsends, hnext⟩ | htx | hrx | rfl | rfl | ⟨u, hnext, hpure, hcrc⟩
  · rw [hexec] at hnext
    cases hnext
    exact .inl ⟨payload, hsends, rfl⟩
  · exact .inr (.inl htx)
  · exact .inr (.inr (.inl hrx))
  · cases hexec
    exact .inr (.inr (.inr (.inl ⟨rfl, rfl⟩)))
  · cases hexec
    exact .inr (.inr (.inr (.inr (.inl ⟨rfl, rfl⟩))))
  · rw [hexec] at hnext
    cases hnext
    exact .inr (.inr (.inr (.inr (.inr ⟨hpure, hcrc⟩))))

end Sys2Proof.Proofs
end

section
/-! Every step keeps the block's invariant (spec/10_state.md R25, R27; spec/30_encoding.md R68). -/

namespace Sys2Proof.Proofs

open Sys2Proof.Machine Sys2Proof.Laws

/-- A completed command leaves a sound state if it keeps the parameters, leaves the receiver idle, returns nothing with
an error, and completes with one of a failed session's two codes only while `WFAIL` holds. -/
theorem sound_of_completion {s t : State} {code : ResultCode} {value : U32} {out : Bytes} (hs : Sound s)
    (hcfg : t.cfg = s.cfg) (hrx : t.rx = Rx.idle) (hresult : t.result = code)
    (hreply : t.reply = some { code := code, value := value, out := out })
    (hempty : code ≠ .ok → value = 0#32 ∧ out = [])
    (hheld : code = .writeFailure ∨ code = .sessionFailed → t.wfail = true) : Sound t where
  replyCanonical := by
    intro r hr hcode
    rw [hreply] at hr
    cases hr
    exact hempty hcode
  receiverIdle := hrx
  failureHeld := by
    intro hfailure
    rw [hresult] at hfailure
    exact hheld hfailure
  parametersLegal := by
    rw [ParametersLegal, hcfg]
    exact hs.parametersLegal

/-- The invariant does not speak of what the host does next. -/
theorem sound_withPending {s : State} (hs : Sound s) (rest : List HostItem) : Sound { s with pending := rest } :=
  ⟨hs.replyCanonical, hs.receiverIdle, hs.failureHeld, hs.parametersLegal⟩

/-- A command that fails R69 leaves a sound state. -/
theorem illegalCommand_sound {s : State} (hs : Sound s) : Sound (illegalCommand s) :=
  sound_of_completion (code := .illegalCommand) hs rfl hs.receiverIdle rfl rfl (by simp) (by simp)

/-- Hardware reset leaves a sound state: it returns nothing and clears `WFAIL` together with `RESULT`. -/
theorem hardwareReset_sound {s : State} (hs : Sound s) : Sound (hardwareReset s) where
  replyCanonical := by
    intro r hr
    cases hr
  receiverIdle := rfl
  failureHeld := by simp [FailureHeld]
  parametersLegal := hs.parametersLegal

/-- The packet-send primitive keeps the invariant: its two failures of a session come with `WFAIL` held. -/
theorem sendPacket_sound {s : State} (hs : Sound s) (payload : Bytes) : Sound (sendPacket payload s) := by
  rcases sendPacket_cases payload s with
    ⟨hfailed, h⟩ | ⟨-, -, h⟩ | ⟨-, -, ⟨q, l, -, h⟩ | ⟨k, l, -, h⟩⟩
  all_goals rw [h]
  · exact sound_of_completion hs rfl hs.receiverIdle rfl rfl (by simp) (fun _ => hfailed)
  · exact sound_of_completion hs rfl hs.receiverIdle rfl rfl (by simp) (by simp)
  · exact sound_of_completion hs rfl rfl rfl rfl (by simp) (by simp)
  · exact sound_of_completion hs rfl hs.receiverIdle rfl rfl (by simp) (fun _ => rfl)

/-- TX_WRITE keeps the invariant: its two failures of a session come with `WFAIL` held. -/
theorem txWrite_sound {s t : State} {data : Bytes} (hs : Sound s) (hexec : exec (.txWrite data) s = .next t) :
    Sound t := by
  rcases txWrite_cases data s with ⟨hfailed, h⟩ | ⟨-, ⟨l, h⟩ | ⟨k, l, -, h⟩⟩
  all_goals
    rw [h] at hexec
    cases hexec
  · exact sound_of_completion hs rfl hs.receiverIdle rfl rfl (by simp) (fun _ => hfailed)
  · exact sound_of_completion hs rfl hs.receiverIdle rfl rfl (by simp) (by simp)
  · exact sound_of_completion hs rfl hs.receiverIdle rfl rfl (by simp) (fun _ => rfl)

/-- RX_READ_FRAME keeps the invariant: it releases the receiver it takes. -/
theorem rxReadFrame_sound {s t : State} {u : U32} (hs : Sound s) (hexec : exec (.rxReadFrame u) s = .next t) :
    Sound t := by
  obtain ⟨l, ⟨-, f, -, h⟩ | ⟨code, hcode, h⟩⟩ := rxReadFrame_cases u s
  all_goals
    rw [h] at hexec
    cases hexec
  · exact sound_of_completion hs rfl rfl rfl rfl (by simp) (by simp)
  · refine sound_of_completion hs rfl rfl rfl rfl (by simp) ?_
    rcases hcode with rfl | rfl <;> simp

/-- A command that reaches neither the serial link nor the receiver keeps the invariant. -/
theorem pureCompletion_sound {s t : State} (hs : Sound s) (hpure : PureCompletion s t) : Sound t := by
  obtain ⟨code, value, out, r, hempty, hwrite, hsession, rfl⟩ := hpure
  refine sound_of_completion hs rfl hs.receiverIdle rfl rfl ?_ ?_
  · intro hcode
    obtain ⟨hvalue, hout, -⟩ := hempty hcode
    exact ⟨hvalue, hout⟩
  · intro hfailure
    exact absurd hfailure (not_or.mpr ⟨hwrite, hsession⟩)

/-- Every instruction keeps the invariant. -/
theorem exec_sound {i : Instr} {s t : State} (hs : Sound s) (hexec : exec i s = .next t) : Sound t := by
  rcases exec_next_cases hexec with
    ⟨payload, -, rfl⟩ | ⟨data, rfl⟩ | ⟨u, rfl⟩ | ⟨-, rfl⟩ | ⟨-, rfl⟩ | ⟨hpure, -⟩
  · exact sendPacket_sound hs payload
  · exact txWrite_sound hs hexec
  · exact rxReadFrame_sound hs hexec
  · exact sound_of_completion hs rfl rfl rfl rfl (by simp) (by simp)
  · exact ⟨by simp [ReplyCanonical], hs.receiverIdle, hs.failureHeld, hs.parametersLegal⟩
  · exact pureCompletion_sound hs hpure

/-- Settles O11: taking an item leaves the invariant alone, and so does each thing an item can be. -/
theorem stepKeepsSoundness : Obligations.StepKeepsSoundness := by
  intro s t hs hstep
  rcases step_next_cases hstep with ⟨-, rfl⟩ | ⟨h, rest, -, htaken⟩
  · exact hs
  have hrest := sound_withPending hs rest
  rcases htaken with ⟨ms, -, rfl⟩ | ⟨-, rfl⟩ | ⟨i, -, hexec⟩ | ⟨why, -, rfl⟩
  · exact hrest
  · exact hardwareReset_sound hrest
  · exact exec_sound hrest hexec
  · exact illegalCommand_sound hrest

end Sys2Proof.Proofs
end

section
/-! What the operations on the serial link leave in `CRC`, `SEQ`, `WFAIL` and `TXLOG` (spec/10_state.md R22). -/

namespace Sys2Proof.Proofs

open Sys2Proof.Machine Sys2Proof.Laws

/-- What a send and a write have in common: `CRC` is as it was, `WFAIL` is not cleared, and `TXLOG` has at most grown at
its end. -/
structure LinkFrame (s t : State) : Prop where
  crc : t.crc = s.crc
  wfail : s.wfail = true → t.wfail = true
  txlog : s.txlog <+: t.txlog

/-- The packet-send primitive (43_transport.md R170), refused, sent or failed. -/
theorem sendPacket_linkFrame (payload : Bytes) (s : State) : LinkFrame s (sendPacket payload s) := by
  rcases sendPacket_cases payload s with ⟨-, h⟩ | ⟨-, -, h⟩ | ⟨-, -, ⟨q, l, -, h⟩ | ⟨k, l, -, h⟩⟩
  all_goals rw [h]
  · exact ⟨rfl, id, List.prefix_rfl⟩
  · exact ⟨rfl, id, List.prefix_rfl⟩
  · exact ⟨rfl, id, List.prefix_append _ _⟩
  · exact ⟨rfl, fun _ => rfl, List.prefix_append _ _⟩

/-- TX_WRITE (43_transport.md R161), which also leaves `SEQ`. -/
theorem txWrite_linkFrame {s t : State} {data : Bytes} (hexec : exec (.txWrite data) s = .next t) :
    LinkFrame s t ∧ t.seq = s.seq := by
  rcases txWrite_cases data s with ⟨-, h⟩ | ⟨-, ⟨l, h⟩ | ⟨k, l, -, h⟩⟩
  all_goals
    rw [h] at hexec
    cases hexec
  · exact ⟨⟨rfl, id, List.prefix_rfl⟩, rfl⟩
  · exact ⟨⟨rfl, id, List.prefix_append _ _⟩, rfl⟩
  · exact ⟨⟨rfl, fun _ => rfl, List.prefix_append _ _⟩, rfl⟩

/-- RX_READ_FRAME leaves all four registers (43_transport.md R165). -/
theorem rxReadFrame_registers {s t : State} {u : U32} (hexec : exec (.rxReadFrame u) s = .next t) :
    t.crc = s.crc ∧ t.seq = s.seq ∧ t.wfail = s.wfail ∧ t.txlog = s.txlog := by
  obtain ⟨l, ⟨-, f, -, h⟩ | ⟨code, -, h⟩⟩ := rxReadFrame_cases u s
  all_goals
    rw [h] at hexec
    cases hexec
    exact ⟨rfl, rfl, rfl, rfl⟩

/-- A pure completion leaves all but `CRC`. -/
theorem pureCompletion_registers {s t : State} (hpure : PureCompletion s t) :
    t.seq = s.seq ∧ t.wfail = s.wfail ∧ t.txlog = s.txlog := by
  obtain ⟨code, value, out, r, -, -, -, rfl⟩ := hpure
  exact ⟨rfl, rfl, rfl⟩

end Sys2Proof.Proofs
end

section
/-! The column "written by" of spec/10_state.md R22, for one host item and then for every step. -/

namespace Sys2Proof.Proofs

open Sys2Proof.Machine Sys2Proof.Laws

/-- The items that write `CRC`: hardware reset, CRC_INIT, CRC_UPDATE, CHECKSUM, SESSION_RESET. -/
def WritesCrc (h : HostItem) : Prop :=
  h = .hardwareReset ∨ ∃ w data, h = .command w data ∧ w ∈ [0x0001#16, 0x0002#16, 0x0003#16, 0x0051#16]

/-- The items that write `SEQ`: hardware reset, a DFU payload, SEND_PACKET, SESSION_RESET. -/
def WritesSeq (h : HostItem) : Prop :=
  h = .hardwareReset ∨ (∃ bytes, h = .payload bytes) ∨
    ∃ w data, h = .command w data ∧ w ∈ [0x0040#16, 0x0051#16]

/-- The items that write to the serial link: a DFU payload, TX_WRITE, SEND_PACKET. -/
def WritesLink (h : HostItem) : Prop :=
  (∃ bytes, h = .payload bytes) ∨ ∃ w data, h = .command w data ∧ w ∈ [0x0030#16, 0x0040#16]

/-- From `s` to `t` only those registers change that R22 lets `h` write. -/
structure WritesOnlyListed (h : HostItem) (s t : State) : Prop where
  crc : t.crc ≠ s.crc → WritesCrc h
  seq : t.seq ≠ s.seq → WritesSeq h
  wfailSet : s.wfail = false → t.wfail = true → WritesLink h
  wfailCleared : s.wfail = true → t.wfail = false → startsSession h = true
  txlog : t.txlog ≠ s.txlog → WritesLink h

/-- Where all but `CRC` is as it was, only the change of `CRC` is to be accounted for. -/
theorem writesOnlyListed_of_registers {h : HostItem} {s t : State} (hcrc : t.crc ≠ s.crc → WritesCrc h)
    (hregisters : t.seq = s.seq ∧ t.wfail = s.wfail ∧ t.txlog = s.txlog) : WritesOnlyListed h s t := by
  obtain ⟨hseq, hwfail, htxlog⟩ := hregisters
  refine ⟨hcrc, fun hne => absurd hseq hne, ?_, ?_, fun hne => absurd htxlog hne⟩
  · intro hclear hset
    simp [hwfail, hclear] at hset
  · intro hset hclear
    simp [hwfail, hset] at hclear

/-- An item that writes to the link accounts for all a `LinkFrame` lets change, `SEQ` excepted. -/
theorem writesOnlyListed_of_linkFrame {h : HostItem} {s t : State} (hlink : WritesLink h)
    (hframe : LinkFrame s t) (hseq : t.seq ≠ s.seq → WritesSeq h) : WritesOnlyListed h s t where
  crc := fun hne => absurd hframe.crc hne
  seq := hseq
  wfailSet := fun _ _ => hlink
  wfailCleared := by
    intro hset hclear
    rw [hframe.wfail hset] at hclear
    cases hclear
  txlog := fun _ => hlink

/-- An instruction that hands a payload to the packet-send primitive is a DFU payload or the command word of
SEND_PACKET. -/
theorem encode_of_sendsPayload {i : Instr} {payload : Bytes} (hsends : sendsPayload i = some payload) :
    (∃ bytes, encode i = .payload bytes) ∨ encode i = .command 0x0040#16 payload := by
  cases i
  case sendPacket p =>
    cases hsends
    exact .inr (sendItem_eq _)
  case dfuInit | dfuStart | dfuData | dfuStop => exact .inl ⟨_, rfl⟩
  all_goals cases hsends

/-- TX_WRITE's command word. -/
theorem encode_txWrite (data : Bytes) : encode (.txWrite data) = .command 0x0030#16 data := by
  show HostItem.command (commandWord .txWrite 0#3) data = _
  rw [show commandWord .txWrite 0#3 = 0x0030#16 by decide]

/-- SESSION_RESET's command word. -/
theorem encode_sessionReset : encode .sessionReset = .command 0x0051#16 [] := by decide

/-- The three checksum commands are among the items that write `CRC`. -/
theorem writesCrc_encode_of_checksumCommand {i : Instr}
    (hi : i = .crcInit ∨ (∃ d, i = .crcUpdate d) ∨ ∃ d, i = .checksum d) : WritesCrc (encode i) := by
  rcases hi with rfl | ⟨d, rfl⟩ | ⟨d, rfl⟩ <;> exact .inr ⟨_, _, rfl, by decide⟩

/-- An instruction changes only the registers that R22 lets its host item write. -/
theorem exec_writesOnlyListed {i : Instr} {s t : State} (hexec : exec i s = .next t) :
    WritesOnlyListed (encode i) s t := by
  rcases exec_next_cases hexec with
    ⟨payload, hsends, rfl⟩ | ⟨data, rfl⟩ | ⟨u, rfl⟩ | ⟨rfl, rfl⟩ | ⟨rfl, rfl⟩ | ⟨hpure, hcrc⟩
  · have hframe := sendPacket_linkFrame payload s
    rcases encode_of_sendsPayload hsends with hitem | hitem
    · exact writesOnlyListed_of_linkFrame (.inl hitem) hframe fun _ => .inr (.inl hitem)
    · exact writesOnlyListed_of_linkFrame (.inr ⟨_, _, hitem, by decide⟩) hframe
        fun _ => .inr (.inr ⟨_, _, hitem, by decide⟩)
  · obtain ⟨hframe, hseq⟩ := txWrite_linkFrame hexec
    exact writesOnlyListed_of_linkFrame (.inr ⟨_, _, encode_txWrite data, by decide⟩) hframe
      fun hne => absurd hseq hne
  · obtain ⟨hcrc, hregisters⟩ := rxReadFrame_registers hexec
    exact writesOnlyListed_of_registers (fun hne => absurd hcrc hne) hregisters
  · exact
      { crc := fun _ => .inr ⟨_, _, encode_sessionReset, by decide⟩
        seq := fun _ => .inr (.inr ⟨_, _, encode_sessionReset, by decide⟩)
        wfailSet := by simp
        wfailCleared := fun _ _ => by decide
        txlog := by simp }
  · exact writesOnlyListed_of_registers (by simp) ⟨rfl, rfl, rfl⟩
  · exact writesOnlyListed_of_registers (fun hne => writesCrc_encode_of_checksumCommand (hcrc hne))
      (pureCompletion_registers hpure)

/-- Hardware reset changes `CRC`, `SEQ` and `WFAIL`, the last only to 0, and keeps `TXLOG` (note 13). -/
theorem hardwareReset_writesOnlyListed (s : State) : WritesOnlyListed .hardwareReset s (hardwareReset s) where
  crc := fun _ => .inl rfl
  seq := fun _ => .inl rfl
  wfailSet := by simp
  wfailCleared := fun _ _ => rfl
  txlog := by simp

/-- A step changes nothing, or takes one item and changes only the registers that R22 lets that item write. -/
theorem step_writesOnlyListed {s t : State} (hstep : step s = .next t) :
    t = s ∨ ∃ h rest, s.pending = h :: rest ∧ WritesOnlyListed h s t := by
  rcases step_next_cases hstep with ⟨-, hsame⟩ | ⟨h, rest, hpending, htaken⟩
  · exact .inl hsame
  refine .inr ⟨h, rest, hpending, ?_⟩
  rcases htaken with ⟨ms, -, rfl⟩ | ⟨rfl, rfl⟩ | ⟨i, hdecode, hexec⟩ | ⟨why, -, rfl⟩
  · exact writesOnlyListed_of_registers (by simp) ⟨rfl, rfl, rfl⟩
  · obtain ⟨hcrc, hseq, hset, hcleared, htxlog⟩ := hardwareReset_writesOnlyListed { s with pending := rest }
    exact ⟨hcrc, hseq, hset, hcleared, htxlog⟩
  · obtain ⟨hcrc, hseq, hset, hcleared, htxlog⟩ := exec_writesOnlyListed hexec
    rw [encode_of_decode hdecode] at hcrc hseq hset hcleared htxlog
    exact ⟨hcrc, hseq, hset, hcleared, htxlog⟩
  · exact writesOnlyListed_of_registers (by simp [illegalCommand]) ⟨rfl, rfl, rfl⟩

/-- Settles O13, from what one taken item can write. -/
theorem onlyListedCommandsWrite : Obligations.OnlyListedCommandsWrite := by
  intro s t hstep
  rcases step_writesOnlyListed hstep with rfl | ⟨h, rest, hpending, hwrites⟩
  · refine ⟨absurd rfl, absurd rfl, ?_, ?_, absurd rfl⟩
    all_goals
      intro hbefore hafter
      rw [hbefore] at hafter
      cases hafter
  exact ⟨fun hne => ⟨h, rest, hpending, hwrites.crc hne⟩,
    fun hne => ⟨h, rest, hpending, hwrites.seq hne⟩,
    fun hclear hset => ⟨h, rest, hpending, hwrites.wfailSet hclear hset⟩,
    fun hset hclear => ⟨h, rest, hpending, hwrites.wfailCleared hset hclear⟩,
    fun hne => ⟨h, rest, hpending, hwrites.txlog hne⟩⟩

end Sys2Proof.Proofs
end

section
/-! `TXLOG` over a run (spec/10_state.md R28, spec/20_memory.md R51). -/

namespace Sys2Proof.Proofs

open Sys2Proof.Machine Sys2Proof.Laws

/-- A run of one step more that answers a next state begins with a step that does. -/
theorem run_succ_next {k : Nat} {s t : State} (hrun : run (k + 1) s = .next t) :
    ∃ u, step s = .next u ∧ run k u = .next t := by
  cases hstep : step s with
  | next u => exact ⟨u, rfl, by rw [← run_succ k s u hstep, hrun]⟩
  | fault f => cases f
  | refused r =>
    have hcore : Sys2Proof.core.step s = .refused r := hstep
    simp only [run, Host.Core.run] at hrun
    rw [hcore] at hrun
    cases hrun

/-- What holds between the two states of every step, and is reflexive and transitive, holds between the two ends of
every run. -/
theorem run_of_step {R : State → State → Prop} (hrefl : ∀ s, R s s) (htrans : ∀ s u t, R s u → R u t → R s t)
    (hstep : ∀ s u, step s = .next u → R s u) (k : Nat) (s t : State) (hrun : run k s = .next t) : R s t := by
  induction k generalizing s with
  | zero =>
    cases hrun
    exact hrefl _
  | succ k ih =>
    obtain ⟨u, hfirst, hrest⟩ := run_succ_next hrun
    exact htrans s u t (hstep s u hfirst) (ih u hrest)

/-- An instruction only appends to `TXLOG`. -/
theorem exec_txlog_prefix {i : Instr} {s t : State} (hexec : exec i s = .next t) : s.txlog <+: t.txlog := by
  rcases exec_next_cases hexec with
    ⟨payload, -, rfl⟩ | ⟨data, rfl⟩ | ⟨u, rfl⟩ | ⟨-, rfl⟩ | ⟨-, rfl⟩ | ⟨hpure, -⟩
  · exact (sendPacket_linkFrame payload s).txlog
  · obtain ⟨hframe, -⟩ := txWrite_linkFrame hexec
    exact hframe.txlog
  · obtain ⟨-, -, -, htxlog⟩ := rxReadFrame_registers hexec
    exact htxlog ▸ List.prefix_rfl
  · exact List.prefix_rfl
  · exact List.prefix_rfl
  · obtain ⟨-, -, htxlog⟩ := pureCompletion_registers hpure
    exact htxlog ▸ List.prefix_rfl

/-- A step only appends to `TXLOG`. -/
theorem step_txlog_prefix (s t : State) (hstep : step s = .next t) : s.txlog <+: t.txlog := by
  rcases step_next_cases hstep with ⟨-, rfl⟩ | ⟨h, rest, -, htaken⟩
  · exact List.prefix_rfl
  rcases htaken with ⟨ms, -, rfl⟩ | ⟨-, rfl⟩ | ⟨i, -, hexec⟩ | ⟨why, -, rfl⟩
  · exact List.prefix_rfl
  · exact List.prefix_rfl
  · exact (exec_txlog_prefix hexec :)
  · exact List.prefix_rfl

/-- Settles O14: growing at the end is reflexive and transitive, and every step does it to `TXLOG`. -/
theorem wireHistoryOnlyGrows : Obligations.WireHistoryOnlyGrows := by
  intro k s t hrun
  obtain ⟨more, hmore⟩ := run_of_step (R := fun s t => s.txlog <+: t.txlog) (fun _ => List.prefix_rfl)
    (fun _ _ _ => List.IsPrefix.trans) step_txlog_prefix k s t hrun
  exact ⟨more, hmore.symm⟩

end Sys2Proof.Proofs
end

section
/-! Repetition of the pure commands (spec/20_memory.md R47): what each writes depends on the parameters at most, and a
completion written twice is the completion written once. STATUS_READ alone returns what it reads of the state, and it
reads nothing that it writes. -/

namespace Sys2Proof.Proofs

open Sys2Proof.Machine Sys2Proof.Laws

/-- A completion leaves nothing of an earlier one. -/
@[simp] theorem complete_complete (code code' : ResultCode) (value value' : U32) (out out' : Bytes) (s : State) :
    complete code value out (complete code' value' out' s) = complete code value out s := rfl

/-- A completion that also writes `CRC` leaves nothing of an earlier one. -/
@[simp] theorem completeCrc_completeCrc (r r' : U16) (s : State) :
    completeCrc r (completeCrc r' s) = completeCrc r s := rfl

/-- The STATUS view (43_transport.md R180) does not show the returned triple. -/
@[simp] theorem statusWord_withReply (reply : Option Reply) (s : State) :
    statusWord { s with reply := reply } = statusWord s := rfl

/-- SLIP_DECODE's completion does not depend on the state. -/
theorem decodeCompletion_eq_complete (result : Option Bytes) :
    ∃ code value out, ∀ u, decodeCompletion result u = complete code value out u := by
  cases result with
  | none => exact ⟨.decodeError, 0#32, [], fun _ => rfl⟩
  | some body => exact ⟨.ok, lengthValue body.length, body, fun _ => rfl⟩

/-- PARSE_ACK's completion does not depend on the state. -/
theorem ackCompletion_eq_complete (ack : Option (BitVec 3)) :
    ∃ code value out, ∀ u, ackCompletion ack u = complete code value out u := by
  cases ack with
  | none => exact ⟨.malformedAck, 0#32, [], fun _ => rfl⟩
  | some a => exact ⟨.ok, a.setWidth 32, [], fun _ => rfl⟩

/-- A pure command that can be repeated is STATUS_READ, or writes the same `CRC` and the same completion whatever the
state, or writes one completion alone, the same in all states with the parameters of `s`. -/
theorem exec_cases_of_repeatable {i : Instr} (hi : repeatable i = true) (s : State) :
    i = .statusRead ∨ (∃ r, ∀ u, exec i u = .next (completeCrc r u)) ∨
      ∃ code value out, ∀ u, u.cfg = s.cfg → exec i u = .next (complete code value out u) := by
  cases i
  case statusRead => exact .inl rfl
  case crcInit => exact .inr (.inl ⟨ckInit, fun _ => rfl⟩)
  case checksum data => exact .inr (.inl ⟨checksum data, fun _ => rfl⟩)
  case slipEncode data =>
    refine .inr (.inr ⟨.ok, lengthValue (slipEncode s.cfg.slip data).length,
      slipEncode s.cfg.slip data, fun u hcfg => ?_⟩)
    rw [← hcfg]
    rfl
  case slipDecode data =>
    obtain ⟨code, value, out, h⟩ := decodeCompletion_eq_complete (slipDecode s.cfg.slip s.cfg.escPolicy data)
    refine .inr (.inr ⟨code, value, out, fun u hcfg => ?_⟩)
    rw [← h, ← hcfg]
    rfl
  case packHeader sq n =>
    by_cases hlong : maxPayload < n.toNat
    · exact .inr (.inr ⟨.payloadTooLong, 0#32, [], fun u _ => congrArg _ (if_pos hlong)⟩)
    · exact .inr (.inr ⟨.ok, headerValue sq (n.setWidth 12), header sq (n.setWidth 12),
        fun u _ => congrArg _ (if_neg hlong)⟩)
  case buildPacket sq payload =>
    by_cases hlong : maxPayload < payload.length
    · exact .inr (.inr ⟨.payloadTooLong, 0#32, [], fun u _ => congrArg _ (if_pos hlong)⟩)
    · refine .inr (.inr ⟨.ok, lengthValue (packet s.cfg.slip sq payload).length,
        packet s.cfg.slip sq payload, fun u hcfg => ?_⟩)
      rw [← hcfg]
      exact congrArg _ (if_neg hlong)
  case parseAck body =>
    obtain ⟨code, value, out, h⟩ := ackCompletion_eq_complete (parseAck body)
    exact .inr (.inr ⟨code, value, out, fun u _ => congrArg _ (h u)⟩)
  all_goals cases hi

/-- Settles O19: the second completion is the first one, written over itself. -/
theorem pureCommandsRepeat : Obligations.PureCommandsRepeat := by
  intro s t i hi hexec
  rcases exec_cases_of_repeatable hi s with rfl | ⟨r, h⟩ | ⟨code, value, out, h⟩
  · cases hexec
    simp only [exec, execStatusRead, statusWord_withReply]
  · rw [h s] at hexec
    cases hexec
    rw [h, completeCrc_completeCrc]
  · rw [h s rfl] at hexec
    cases hexec
    rw [h _ (complete_cfg ..), complete_complete]

end Sys2Proof.Proofs
end

section
/-! The encoder seen from the decoder (spec/30_encoding.md R66, R70, R74): what the decoder has to check in an item that
the encoder wrote, and what a well-formed instruction is of the bytes its item carries. -/

namespace Sys2Proof.Proofs

open Sys2Proof.Machine Sys2Proof.Laws

/-- The bytes that an item carries beside its command word: `DATA`, or the payload. -/
def itemBytes : HostItem → Bytes
  | .command _ data => data
  | .payload bytes => bytes
  | .wait _ => []
  | .hardwareReset => []

@[simp] theorem itemBytes_command (w : U16) (data : Bytes) : itemBytes (.command w data) = data := rfl

@[simp] theorem itemBytes_payload (bytes : Bytes) : itemBytes (.payload bytes) = bytes := rfl

/-- The tag of a DFU payload has four bytes (R74). -/
@[simp] theorem dfuPayload_length (o : DfuOp) (rest : Bytes) : (dfuPayload o rest).length = 4 + rest.length := by
  simp only [dfuPayload, le32, List.length_append, List.length_cons, List.length_nil]

/-- Within any `MAX_DATA`, well formed means that the bytes of the instruction's item keep to it (R66). -/
theorem wellFormed_iff_itemBytes {limit : Nat} (hlimit : 4 ≤ limit) (i : Instr) :
    wellFormed limit i = true ↔ (itemBytes (encode i)).length ≤ limit := by
  cases i
  case packHeader | rxReadFrame =>
    simp only [wellFormed, encode, itemBytes_command, le16, le32, List.length_cons, List.length_nil, true_iff]
    omega
  all_goals simp [wellFormed, encode]

/-- Every `MAX_DATA` leaves room for the fixed operands of PACK_HEADER and RX_READ_FRAME (00_scope.md R9). -/
theorem four_le_maxData (p : Params) : 4 ≤ maxData p := by
  simp only [maxData, minMaxData]
  omega

/-- Check 4 of R69, passed. -/
theorem overLimit_eq_false_iff (p : Params) (n : Nat) : overLimit (maxData p) n = false ↔ n ≤ maxData p := by
  rw [overLimit_maxData, decide_eq_false_iff_not, not_lt]

/-- A command that passes the five checks of R69 decodes to its operands put together. -/
theorem decodeCommand_commandWord {limit : Nat} {o : Op} {sq : BitVec 3} {data : Bytes} {i : Instr}
    (hsq : sq = 0#3 ∨ usesSq o = true) (hlimit : overLimit limit data.length = false)
    (hoperands : assembleOperands o sq data = some i) :
    decodeCommand limit (commandWord o sq) data = .ok i := by
  have hused : ¬ (sq ≠ 0#3 ∧ usesSq o = false) := by
    rintro ⟨hne, hunused⟩
    rcases hsq with h | h
    · exact hne h
    · simp [hunused] at h
  simp only [decodeCommand, reservedField_commandWord, opField_commandWord, sqField_commandWord,
    opOfCode_opCode, ne_eq, not_true_eq_false, if_false]
  rw [if_neg hused, hlimit, hoperands]
  rfl

/-- A payload under a defined tag decodes to the instruction of that tag. -/
theorem decodePayload_dfuPayload (limit : Nat) (o : DfuOp) (rest : Bytes) :
    decodePayload limit (dfuPayload o rest) =
      if overLimit limit (4 + rest.length) = true then .error .dataTooLong else .ok (dfuInstr o rest) := by
  simp only [dfuPayload, le32, List.cons_append, List.nil_append, decodePayload, ofLe32_le32, dfuOfCode_dfuCode]

/-- What the encoder writes: a command word with the `DATA` its operands are put together from, or a tagged
payload. -/
theorem encode_cases (i : Instr) :
    (∃ o sq data, encode i = .command (commandWord o sq) data ∧ (sq = 0#3 ∨ usesSq o = true) ∧
      assembleOperands o sq data = some i) ∨
    (∃ o rest, encode i = .payload (dfuPayload o rest) ∧ i = dfuInstr o rest) := by
  cases i
  case dfuInit rest => exact .inr ⟨.init, rest, rfl, rfl⟩
  case dfuStart rest => exact .inr ⟨.start, rest, rfl, rfl⟩
  case dfuData rest => exact .inr ⟨.data, rest, rfl, rfl⟩
  case dfuStop rest => exact .inr ⟨.stop, rest, rfl, rfl⟩
  all_goals refine .inl ⟨_, _, _, rfl, ?_⟩
  case packHeader sq n =>
    obtain ⟨-, hread⟩ := ofLe16_le16 n
    exact ⟨.inr rfl, congrArg (fun m => some (Instr.packHeader sq m)) hread⟩
  case buildPacket => exact ⟨.inr rfl, rfl⟩
  case rxReadFrame t => exact ⟨.inl rfl, congrArg (fun u => some (Instr.rxReadFrame u)) (ofLe32_le32 t)⟩
  all_goals exact ⟨.inl rfl, rfl⟩

/-- An item that decodes has passed check 4 of R69. -/
theorem overLimit_of_decode {limit : Nat} {h : HostItem} {i : Instr} (hdecode : decode limit h = .ok i) :
    overLimit limit (itemBytes h).length = false := by
  cases h with
  | command w data =>
    obtain ⟨o, -, -, -, hlimit, -⟩ := decodeCommand_ok hdecode
    exact hlimit
  | payload bytes =>
    obtain ⟨o, rest, rfl, hlimit, -⟩ := decodePayload_ok hdecode
    rw [itemBytes_payload, dfuPayload_length]
    exact hlimit
  | wait ms => cases hdecode
  | hardwareReset => cases hdecode

/-- Settles O1: of what the decoder checks, the encoder writes all but the length right, and a well-formed instruction
has the length. -/
theorem decodeInvertsEncode : Obligations.DecodeInvertsEncode := by
  intro p i hwf
  rw [wellFormed_iff_itemBytes (four_le_maxData p), ← overLimit_eq_false_iff] at hwf
  rcases encode_cases i with ⟨o, sq, data, hitem, hsq, hoperands⟩ | ⟨o, rest, hitem, rfl⟩
  · rw [hitem] at hwf ⊢
    exact decodeCommand_commandWord hsq hwf hoperands
  · rw [hitem, itemBytes_payload, dfuPayload_length] at hwf
    rw [hitem, decode, decodePayload_dfuPayload, hwf]
    rfl

/-- Settles O2: what the decoder has read is encoded as it stood, and its length has been checked. -/
theorem encodeInvertsDecode : Obligations.EncodeInvertsDecode := by
  intro p h i hdecode
  have hencode := encode_of_decode hdecode
  have hlimit := overLimit_of_decode hdecode
  rw [overLimit_eq_false_iff, ← hencode] at hlimit
  exact ⟨hencode, (wellFormed_iff_itemBytes (four_le_maxData p) i).mpr hlimit⟩

/-- Settles O4, word by word. -/
theorem wordsOfTheOpcodeMap : Obligations.WordsOfTheOpcodeMap :=
  ⟨by decide, by decide, by decide, by decide, by decide, by decide, by decide, by decide, by decide⟩

end Sys2Proof.Proofs
end

section
/-! The step that takes an item which is no instruction, and the five checks of spec/30_encoding.md R69 on the numbers
of the command word. -/

namespace Sys2Proof.Proofs

open Sys2Proof.Machine Sys2Proof.Laws

/-- An item that fails its decoding, a wait and a hardware reset apart: an undefined DFU opcode is refused (note 7),
anything else completes with `ILLEGAL_COMMAND` (R69). -/
theorem step_of_decode_error {s : State} {h : HostItem} {rest : List HostItem} {why : Rejection}
    (hlegal : ParametersLegal s) (hpending : s.pending = h :: rest) (hdecode : decode (maxData s.cfg) h = .error why)
    (hitem : why ≠ .notACommand) :
    step s = if why = .undefinedDfuOpcode then .refused .undefinedDfuOpcode
      else .next (illegalCommand { s with pending := rest }) := by
  rcases step_cases s with ⟨hbad, -⟩ | ⟨-, ⟨hidle, -⟩ | ⟨h', rest', hpending', htaken⟩⟩
  · rw [ParametersLegal, hbad] at hlegal
    cases hlegal
  · rw [hpending] at hidle
    cases hidle
  rw [hpending] at hpending'
  cases hpending'
  rcases htaken with ⟨ms, rfl, -⟩ | ⟨rfl, -⟩ | ⟨i, hok, -⟩ | ⟨why', herror, hdefined, hstep⟩ | ⟨-, herror, hstep⟩
  · cases hdecode
    exact absurd rfl hitem
  · cases hdecode
    exact absurd rfl hitem
  · rw [hdecode] at hok
    cases hok
  · rw [hdecode] at herror
    cases herror
    rw [hstep, if_neg hdefined]
  · rw [hdecode] at herror
    cases herror
    rw [hstep, if_pos rfl]

/-- The `OP` values of R67 as numbers. -/
theorem opOfCode_eq_none_iff (c : Byte) :
    opOfCode c = none ↔
      c.toNat ∉ [0x01, 0x02, 0x03, 0x10, 0x11, 0x20, 0x21, 0x22, 0x30, 0x31, 0x40, 0x50, 0x51] := by
  have hnumbers : [0x01, 0x02, 0x03, 0x10, 0x11, 0x20, 0x21, 0x22, 0x30, 0x31, 0x40, 0x50, 0x51] =
      allOps.map fun o => (opCode o).toNat := by decide
  rw [hnumbers, opOfCode, List.find?_eq_none]
  simp [← BitVec.toNat_inj]

/-- The column "`SQ` used" of R67 by number. -/
theorem usesSq_eq_false_iff (o : Op) : usesSq o = false ↔ (opCode o).toNat ∉ [0x20, 0x21] := by
  cases o <;> decide

/-- The `DATA` shapes of R67 by number: check 5 of R69, failed. -/
theorem assembleOperands_eq_none_iff (o : Op) (sq : BitVec 3) (data : Bytes) :
    assembleOperands o sq data = none ↔
      ((opCode o).toNat ∈ [0x01, 0x50, 0x51] ∧ data ≠ []) ∨ ((opCode o).toNat = 0x20 ∧ data.length ≠ 2) ∨
        ((opCode o).toNat = 0x31 ∧ data.length ≠ 4) := by
  cases o
  case packHeader =>
    rcases data with _ | ⟨d0, _ | ⟨d1, _ | ⟨d2, more⟩⟩⟩ <;> simp [assembleOperands, opCode]
  case rxReadFrame =>
    rcases data with _ | ⟨d0, _ | ⟨d1, _ | ⟨d2, _ | ⟨d3, _ | ⟨d4, more⟩⟩⟩⟩⟩ <;> simp [assembleOperands, opCode]
  all_goals simp [assembleOperands, opCode]

/-- A command is rejected by one of the five checks of R69. -/
theorem rejection_of_command {limit : Nat} {w : U16} {data : Bytes} {why : Rejection}
    (hdecode : decode limit (.command w data) = .error why) : why ≠ .notACommand ∧ why ≠ .undefinedDfuOpcode := by
  simp only [decode, decodeCommand] at hdecode
  repeat' split at hdecode
  all_goals cases hdecode
  all_goals decide

/-- A command decodes exactly when it passes the five checks. -/
theorem decode_command_ok_iff {limit : Nat} {w : U16} {data : Bytes} {i : Instr} :
    decode limit (.command w data) = .ok i ↔
      ∃ o, reservedField w = 0#5 ∧ opOfCode (opField w) = some o ∧ (sqField w = 0#3 ∨ usesSq o = true) ∧
        overLimit limit data.length = false ∧ assembleOperands o (sqField w) data = some i := by
  refine ⟨decodeCommand_ok, ?_⟩
  rintro ⟨o, hreserved, hop, hsq, hlimit, hoperands⟩
  rw [← commandWord_of_fields w o hreserved hop]
  exact decodeCommand_commandWord hsq hlimit hoperands

/-- The reserved bits of R66 as a number. -/
theorem reservedField_eq_zero_iff (w : U16) : reservedField w = 0#5 ↔ w.toNat / 2048 = 0 := by
  rw [← BitVec.toNat_inj, reservedField_toNat]
  rfl

/-- `SQ` of R66 as a number. -/
theorem sqField_eq_zero_iff (w : U16) : sqField w = 0#3 ↔ w.toNat / 256 % 8 = 0 := by
  rw [← BitVec.toNat_inj, sqField_toNat]
  rfl

/-- For a command word of an assigned `OP`, R69 on numbers is the decoder's other four checks. -/
theorem failsR69_iff_of_assigned (p : Params) {w : U16} {o : Op} (data : Bytes)
    (hop : opOfCode (opField w) = some o) :
    FailsR69 (maxData p) w data ↔
      reservedField w ≠ 0#5 ∨ (sqField w ≠ 0#3 ∧ usesSq o = false) ∨
        overLimit (maxData p) data.length = true ∨ assembleOperands o (sqField w) data = none := by
  have hcode : (opCode o).toNat = w.toNat % 256 := by rw [opCode_of_opOfCode _ _ hop, opField_toNat]
  have hassigned : ¬ w.toNat % 256 ∉
      [0x01, 0x02, 0x03, 0x10, 0x11, 0x20, 0x21, 0x22, 0x30, 0x31, 0x40, 0x50, 0x51] := by
    rw [← opField_toNat, ← opOfCode_eq_none_iff, hop]
    exact Option.some_ne_none o
  rw [ne_eq, ne_eq, reservedField_eq_zero_iff, sqField_eq_zero_iff, usesSq_eq_false_iff,
    assembleOperands_eq_none_iff, overLimit_maxData, decide_eq_true_iff, hcode, FailsR69, or_iff_right hassigned]

/-- The spec's numbers and the decoder's checks agree: a command passes R69 exactly when it decodes. -/
theorem not_failsR69_iff (p : Params) (w : U16) (data : Bytes) :
    ¬ FailsR69 (maxData p) w data ↔ ∃ i, decode (maxData p) (.command w data) = .ok i := by
  simp only [decode_command_ok_iff]
  cases hop : opOfCode (opField w) with
  | none =>
    have hunassigned := (opOfCode_eq_none_iff _).mp hop
    rw [opField_toNat] at hunassigned
    simp only [reduceCtorEq, false_and, and_false, exists_false, iff_false, not_not]
    exact .inr (.inl hunassigned)
  | some o =>
    rw [failsR69_iff_of_assigned p data hop]
    simp [Option.eq_none_iff_forall_ne_some, or_iff_not_imp_left]

/-- Settles O5: the numbers of R69 say whether the command decodes, and a step runs what decodes and completes what does
not. -/
theorem illegalCommandHasNoOtherEffect : Obligations.IllegalCommandHasNoOtherEffect := by
  intro s w data rest hlegal hpending
  refine ⟨fun hfails => ?_, fun hpasses => ?_⟩
  · cases hdecode : decode (maxData s.cfg) (.command w data) with
    | ok i => exact absurd hfails ((not_failsR69_iff _ _ _).mpr ⟨i, hdecode⟩)
    | error why =>
      obtain ⟨hitem, hdefined⟩ := rejection_of_command hdecode
      rw [step_of_decode_error hlegal hpending hdecode hitem, if_neg hdefined]
      rfl
  · obtain ⟨i, hdecode⟩ := (not_failsR69_iff _ _ _).mp hpasses
    exact ⟨i, hdecode, stepRunsDecodedInstruction s _ rest i hlegal hpending hdecode⟩

end Sys2Proof.Proofs
end

section
/-! Payloads written by their DFU opcode (spec/30_encoding.md R74; notes 6, 7). -/

namespace Sys2Proof.Proofs

open Sys2Proof.Machine Sys2Proof.Laws

/-- The opcodes of R74 as numbers: a tag that is none of them is no opcode. -/
theorem dfuOfCode_eq_none {c : U32} (hc : c.toNat ∉ [1, 3, 4, 5]) : dfuOfCode c = none := by
  rw [Option.eq_none_iff_forall_ne_some]
  intro o hfound
  rw [← dfuCode_of_dfuOfCode c o hfound] at hc
  cases o <;> exact hc (by decide)

/-- A payload too short for a tag has no opcode (note 7). -/
theorem decodePayload_of_short {limit : Nat} {bytes : Bytes} (hshort : bytes.length < 4) :
    decodePayload limit bytes = .error .undefinedDfuOpcode := by
  unfold decodePayload
  split
  · simp only [List.length_cons] at hshort
    omega
  · rfl

/-- A payload whose tag is no opcode of R74. -/
theorem decodePayload_of_undefined {limit : Nat} {d0 d1 d2 d3 : Byte} {more : Bytes}
    (htag : dfuOfCode (ofLe32 d0 d1 d2 d3) = none) :
    decodePayload limit (d0 :: d1 :: d2 :: d3 :: more) = .error .undefinedDfuOpcode := by
  simp only [decodePayload, htag]

/-- Settles O7: neither kind of payload has an opcode, and a step refuses what has none. -/
theorem undefinedDfuOpcodeIsRefused : Obligations.UndefinedDfuOpcodeIsRefused := by
  intro s bytes rest hlegal hpending hundefined
  have hdecode : decode (maxData s.cfg) (.payload bytes) = .error .undefinedDfuOpcode := by
    rcases hundefined with hshort | ⟨d0, d1, d2, d3, more, rfl, htag⟩
    · exact decodePayload_of_short hshort
    · rw [← ofLe32_toNat] at htag
      exact decodePayload_of_undefined (dfuOfCode_eq_none htag)
  rw [step_of_decode_error hlegal hpending hdecode (by decide), if_pos rfl]

/-- The instruction of a DFU opcode is the send of its payload (note 6). -/
theorem exec_dfuInstr (o : DfuOp) (rest : Bytes) (s : State) :
    exec (dfuInstr o rest) s = exec (.sendPacket (dfuPayload o rest)) s := by
  cases o <;> rfl

/-- The word of SEND_PACKET decodes to it unless `DATA` is too long: it uses no `SQ` and takes any shape. -/
theorem decode_sendPacket_word (limit : Nat) (payload : Bytes) :
    decode limit (.command 0x0040#16 payload) =
      if overLimit limit payload.length = true then .error .dataTooLong else .ok (.sendPacket payload) := rfl

/-- The step that takes a decoded item put in front of `rest`. -/
theorem step_withItem_of_ok {s : State} {h : HostItem} {i : Instr} (rest : List HostItem) (hlegal : ParametersLegal s)
    (hdecode : decode (maxData s.cfg) h = .ok i) :
    step { s with pending := h :: rest } = exec i { s with pending := rest } :=
  stepRunsDecodedInstruction { s with pending := h :: rest } h rest i hlegal rfl hdecode

/-- The step that takes an item with too much `DATA` put in front of `rest`. -/
theorem step_withItem_of_tooLong {s : State} {h : HostItem} (rest : List HostItem) (hlegal : ParametersLegal s)
    (hdecode : decode (maxData s.cfg) h = .error .dataTooLong) :
    step { s with pending := h :: rest } = .next (illegalCommand { s with pending := rest }) :=
  step_of_decode_error (s := { s with pending := h :: rest }) hlegal rfl hdecode (by decide)

/-- Settles O46: the two items decode alike, to sends of the same bytes or to the same rejection. -/
theorem dfuPayloadStepsAsSendPacket : Obligations.DfuPayloadStepsAsSendPacket := by
  intro s o more rest
  change step { s with pending := .payload (dfuPayload o more) :: rest } =
    step { s with pending := .command 0x0040#16 (dfuPayload o more) :: rest }
  by_cases hlegal : ParametersLegal s
  swap
  · have hbad : slipLegal s.cfg.slip = false := by simpa [ParametersLegal] using hlegal
    rw [step_of_slipLegal_false { s with pending := .payload _ :: rest } hbad,
      step_of_slipLegal_false { s with pending := .command _ _ :: rest } hbad]
  have hpayload : decode (maxData s.cfg) (.payload (dfuPayload o more)) = _ :=
    decodePayload_dfuPayload (maxData s.cfg) o more
  have hcommand := decode_sendPacket_word (maxData s.cfg) (dfuPayload o more)
  rw [dfuPayload_length] at hcommand
  by_cases hlong : overLimit (maxData s.cfg) (4 + more.length) = true
  · rw [if_pos hlong] at hpayload hcommand
    rw [step_withItem_of_tooLong rest hlegal hpayload, step_withItem_of_tooLong rest hlegal hcommand]
  · rw [if_neg hlong] at hpayload hcommand
    rw [step_withItem_of_ok rest hlegal hpayload, step_withItem_of_ok rest hlegal hcommand, exec_dfuInstr]

end Sys2Proof.Proofs
end

section
/-! The returned code and `STATUS.RESULT` (spec/30_encoding.md R68, spec/10_state.md R26). -/

namespace Sys2Proof.Proofs

open Sys2Proof.Machine Sys2Proof.Laws

/-- The state returns one triple, empty but for its code when that is an error, and holds the code in
`STATUS.RESULT`. -/
def CodeRecorded (t : State) : Prop :=
  ∃ r, t.reply = some r ∧ (r.code ≠ .ok → r.value = 0#32 ∧ r.out = []) ∧ t.result = r.code

/-- A successful completion may return anything. -/
theorem codeRecorded_ok {t : State} {value : U32} {out : Bytes} (hresult : t.result = .ok)
    (hreply : t.reply = some { code := .ok, value := value, out := out }) : CodeRecorded t :=
  ⟨_, hreply, fun hcode => absurd rfl hcode, hresult⟩

/-- An error returns its code alone. -/
theorem codeRecorded_error {t : State} {code : ResultCode} (hresult : t.result = code)
    (hreply : t.reply = some { code := code, value := 0#32, out := [] }) : CodeRecorded t :=
  ⟨_, hreply, fun _ => ⟨rfl, rfl⟩, hresult⟩

/-- The packet-send primitive records its code, in each of its four ways to end. -/
theorem sendPacket_codeRecorded (payload : Bytes) (s : State) : CodeRecorded (sendPacket payload s) := by
  rcases sendPacket_cases payload s with
    ⟨-, h⟩ | ⟨-, -, h⟩ | ⟨-, -, ⟨q, l, -, h⟩ | ⟨k, l, -, h⟩⟩
  all_goals
    rw [h]
    exact codeRecorded_error rfl rfl

/-- Every instruction but STATUS_READ records its code. -/
theorem exec_codeRecorded {i : Instr} {s t : State} (hi : i ≠ .statusRead) (hexec : exec i s = .next t) :
    CodeRecorded t := by
  rcases exec_next_cases hexec with
    ⟨payload, -, rfl⟩ | ⟨data, rfl⟩ | ⟨u, rfl⟩ | ⟨-, rfl⟩ | ⟨hstatus, -⟩ |
      ⟨⟨code, value, out, r, hempty, -, -, rfl⟩, -⟩
  · exact sendPacket_codeRecorded payload s
  · rcases txWrite_cases data s with ⟨-, h⟩ | ⟨-, ⟨l, h⟩ | ⟨k, l, -, h⟩⟩
    all_goals
      rw [h] at hexec
      cases hexec
    · exact codeRecorded_error rfl rfl
    · exact codeRecorded_ok rfl rfl
    · exact codeRecorded_error rfl rfl
  · obtain ⟨l, ⟨-, f, -, h⟩ | ⟨code, -, h⟩⟩ := rxReadFrame_cases u s
    all_goals
      rw [h] at hexec
      cases hexec
    · exact codeRecorded_ok rfl rfl
    · exact codeRecorded_error rfl rfl
  · exact codeRecorded_ok rfl rfl
  · exact absurd hstatus hi
  · refine ⟨_, rfl, fun hcode => ?_, rfl⟩
    obtain ⟨hvalue, hout, -⟩ := hempty hcode
    exact ⟨hvalue, hout⟩

/-- Settles O18: STATUS_READ returns `OK` and leaves `STATUS.RESULT`; every other instruction records its code. -/
theorem resultHoldsTheReturnedCode : Obligations.ResultHoldsTheReturnedCode := by
  intro s t i hexec
  by_cases hi : i = .statusRead
  · subst hi
    cases hexec
    exact ⟨_, rfl, fun hcode => absurd rfl hcode, fun hne => absurd rfl hne, fun _ => rfl⟩
  · obtain ⟨r, hreply, hempty, hresult⟩ := exec_codeRecorded hi hexec
    exact ⟨r, hreply, hempty, fun _ => hresult, fun hstatus => absurd hstatus hi⟩

end Sys2Proof.Proofs
end

section
/-! The four header bytes as numbers (spec/30_encoding.md R62, R64, R65; spec/42_packet.md R149). -/

namespace Sys2Proof.Proofs

open Sys2Proof.Machine Sys2Proof.Laws

/-- The fields of the first byte (R63), from the low end: `SEQ`, `ACK`, `DIP` and `RP`. -/
theorem headerByte0_fields (seq : BitVec 3) :
    (headerByte0 seq).toNat % 8 = seq.toNat ∧ (headerByte0 seq).toNat / 8 % 8 = (seq.toNat + 1) % 8 ∧
      (headerByte0 seq).toNat / 64 % 2 = 1 ∧ (headerByte0 seq).toNat / 128 = 1 := by
  revert seq
  decide

/-- The packet type and a nibble above it do not overlap. -/
theorem pktType_or_nibble (x : BitVec 4) : (pktType ||| (x.setWidth 8 <<< 4)).toNat = 14 + 16 * x.toNat := by
  revert x
  decide

/-- The second byte: the packet type and the low nibble of the length. -/
theorem headerByte1_toNat (n : BitVec 12) : (headerByte1 n).toNat = 14 + 16 * (n.toNat % 16) := by
  rw [headerByte1, pktType_or_nibble, BitVec.extractLsb'_toNat, Nat.shiftRight_zero]

/-- The third byte: the rest of the length. -/
theorem headerByte2_toNat (n : BitVec 12) : (headerByte2 n).toNat = n.toNat / 16 := by
  rw [headerByte2, BitVec.extractLsb'_toNat, Nat.shiftRight_eq_div_pow]
  omega

/-- The checksum byte of R64, on integers. -/
theorem headerCheck_toNat (b0 b1 b2 : Byte) :
    (headerCheck b0 b1 b2).toNat = (256 - (b0.toNat + b1.toNat + b2.toNat) % 256) % 256 := by
  rw [headerCheck, BitVec.toNat_ofNat, Nat.mod_mod]

/-- Settles O32, from each header byte as a number. -/
theorem headerLayout : Obligations.HeaderLayout := by
  intro seq n
  obtain ⟨hseq, hack, hdip, hrp⟩ := headerByte0_fields seq
  have hlow := headerByte1_toNat n
  have hcheck : (headerByte3 seq n).toNat = _ := headerCheck_toNat (headerByte0 seq) (headerByte1 n) (headerByte2 n)
  refine ⟨headerByte0 seq, headerByte1 n, headerByte2 n, headerByte3 seq n, rfl, hseq, hack, hdip, hrp, ?_, ?_,
    headerByte2_toNat n, hcheck, ?_⟩
  all_goals omega

/-- Settles O33: both clauses over the eight sequence numbers. -/
theorem firstHeaderByteValues : Obligations.FirstHeaderByteValues :=
  ⟨by decide, by decide⟩

end Sys2Proof.Proofs
end

section
/-! The words of a written line (spec/30_encoding.md R75; note 12). -/

namespace Sys2Proof.Proofs

open Sys2Proof.Machine Sys2Proof.Laws

/-- A word of a line: at least one character, and no space. -/
def IsWord (word : List Char) : Prop := word ≠ [] ∧ ' ' ∉ word

/-- Characters that are no spaces join the word under way. -/
theorem wordsFrom_append (current word rest : List Char) (hspace : ' ' ∉ word) :
    wordsFrom current (word ++ rest) = wordsFrom (current ++ word) rest := by
  induction word generalizing current with
  | nil => simp
  | cons c cs ih =>
    obtain ⟨hc, hcs⟩ : ' ' ≠ c ∧ ' ' ∉ cs := by simpa using hspace
    rw [List.cons_append, wordsFrom, if_neg hc.symm, ih _ hcs, List.append_assoc, List.singleton_append]

/-- A line of one word. -/
theorem wordsFrom_word {word : List Char} (hword : IsWord word) : wordsFrom [] word = [word] := by
  obtain ⟨hne, hspace⟩ := hword
  have hjoin := wordsFrom_append [] word [] hspace
  rw [List.append_nil, List.nil_append] at hjoin
  rw [hjoin, wordsFrom, if_neg hne]

/-- A line's first word ends at the first space. -/
theorem wordsFrom_word_space {word : List Char} (hword : IsWord word) (rest : List Char) :
    wordsFrom [] (word ++ ' ' :: rest) = word :: wordsFrom [] rest := by
  obtain ⟨hne, hspace⟩ := hword
  rw [wordsFrom_append _ _ _ hspace, List.nil_append, wordsFrom, if_pos rfl, if_neg hne]

/-- Words written with one space before each but the first are read back. -/
theorem wordsFrom_spaced {word : List Char} {words : List (List Char)} (hword : IsWord word)
    (hwords : ∀ w ∈ words, IsWord w) : wordsFrom [] (word ++ words.flatMap (' ' :: ·)) = word :: words := by
  induction words generalizing word with
  | nil => rw [List.flatMap_nil, List.append_nil, wordsFrom_word hword]
  | cons w ws ih =>
    rw [List.flatMap_cons, List.cons_append, wordsFrom_word_space hword,
      ih (hwords w List.mem_cons_self) fun v hv => hwords v (List.mem_cons_of_mem w hv)]

/-- Every mnemonic of R67 is a word. -/
theorem opName_isWord (o : Op) : IsWord (opName o) := by
  cases o <;> exact ⟨by decide, by decide⟩

/-- Every mnemonic of R76 is a word. -/
theorem pseudoName_isWord (p : Pseudo) : IsWord (pseudoName p) := by
  cases p <;> exact ⟨by decide, by decide⟩

/-- A line that begins with a command's mnemonic. -/
theorem assembleLine_of_op {line : List Char} {o : Op} {words : List (List Char)}
    (hwords : wordsFrom [] line = opName o :: words) : assembleLine line = assembleOp o words := by
  have hfound : allOps.find? (fun o' => opName o' == opName o) = some o := by cases o <;> decide
  simp only [assembleLine, hwords, hfound]

/-- A line that begins with a pseudo-command's mnemonic, which is no command's. -/
theorem assembleLine_of_pseudo {line : List Char} {p : Pseudo} {words : List (List Char)}
    (hwords : wordsFrom [] line = pseudoName p :: words) : assembleLine line = assemblePseudo p words := by
  have hno : allOps.find? (fun o => opName o == pseudoName p) = none := by cases p <;> decide
  have hfound : [Pseudo.checksumOf, .readAck, .frame].find? (fun p' => pseudoName p' == pseudoName p) = some p := by
    cases p <;> decide
  simp only [assembleLine, hwords, hno, hfound]

/-- A line that assembles begins with a mnemonic of R67 or R76. -/
theorem name_of_assembleLine {line : List Char} {h : HostItem} (hline : assembleLine line = some h) :
    ∃ name words, wordsFrom [] line = name :: words ∧ ((∃ o, name = opName o) ∨ ∃ p, name = pseudoName p) := by
  unfold assembleLine at hline
  split at hline
  · cases hline
  next name words hwords =>
  refine ⟨name, words, hwords, ?_⟩
  split at hline
  next o hfound =>
    have hname := List.find?_some hfound
    exact .inl ⟨o, (eq_of_beq hname).symm⟩
  next =>
  split at hline
  next p hfound =>
    have hname := List.find?_some hfound
    exact .inr ⟨p, (eq_of_beq hname).symm⟩
  · cases hline

end Sys2Proof.Proofs
end

section
/-! The operands of a written line (spec/30_encoding.md R75). -/

namespace Sys2Proof.Proofs

open Sys2Proof.Machine Sys2Proof.Laws

/-- A hex digit reads back. -/
theorem hexValue_hexChar {n : Nat} (hn : n < 16) : hexValue (hexChar n) = some n := by
  have hall : ∀ m : Fin 16, hexValue (hexChar m) = some m.val := by decide
  exact hall ⟨n, hn⟩

/-- No hex digit is a space. -/
theorem hexChar_ne_space {n : Nat} (hn : n < 16) : hexChar n ≠ ' ' := by
  intro hspace
  have hvalue := hexValue_hexChar hn
  rw [hspace] at hvalue
  exact absurd hvalue (by simp [hexValue])

/-- The two digits of a byte. -/
theorem hexText_cons (b : Byte) (bytes : Bytes) :
    hexText (b :: bytes) = hexChar (b.toNat / 16) :: hexChar (b.toNat % 16) :: hexText bytes := rfl

/-- Written bytes read back. -/
theorem hexBytes_hexText (bytes : Bytes) : hexBytes (hexText bytes) = some bytes := by
  induction bytes with
  | nil => rfl
  | cons b bs ih =>
    have hhigh : b.toNat / 16 < 16 := by have := b.isLt; omega
    have hbyte : BitVec.ofNat 8 (16 * (b.toNat / 16) + b.toNat % 16) = b := by
      rw [Nat.div_add_mod, BitVec.ofNat_toNat, BitVec.setWidth_eq]
    simp only [hexText_cons, hexBytes, hexValue_hexChar hhigh, hexValue_hexChar (Nat.mod_lt _ (by decide : 0 < 16)),
      ih, hbyte]

/-- Written bytes are a word, if there are any. -/
theorem hexText_isWord {bytes : Bytes} (hne : bytes ≠ []) : IsWord (hexText bytes) := by
  refine ⟨?_, ?_⟩
  · intro hempty
    have hread := hexBytes_hexText bytes
    rw [hempty] at hread
    cases hread
    exact hne rfl
  · intro hspace
    obtain ⟨b, -, hdigit⟩ := List.mem_flatMap.mp hspace
    have hb := b.isLt
    rcases List.mem_pair.mp hdigit with h | h
    · exact hexChar_ne_space (by omega) h.symm
    · exact hexChar_ne_space (by omega) h.symm

/-- The data operand that R75 writes: none for empty `DATA`. -/
def dataWords (data : Bytes) : List (List Char) := if data = [] then [] else [hexText data]

/-- The data operand reads back. -/
theorem dataOperand_dataWords (data : Bytes) : dataOperand (dataWords data) = some data := by
  unfold dataWords
  split
  next hempty => rw [hempty]; rfl
  next =>
    have hquotes : hexText data ≠ [Char.ofNat 34, Char.ofNat 34] := by
      intro hquoted
      have hread := hexBytes_hexText data
      rw [hquoted] at hread
      exact absurd hread (by simp [hexBytes, hexValue])
    rw [dataOperand, if_neg hquotes, hexBytes_hexText]

/-- The `seq=` operand that R75 writes. -/
def seqWord (sq : BitVec 3) : List Char := ['s', 'e', 'q', '=', Char.ofNat (48 + sq.toNat)]

/-- The `seq=` operand is a word. -/
theorem seqWord_isWord (sq : BitVec 3) : IsWord (seqWord sq) := by
  have hspace : ∀ sq : BitVec 3, ' ' ∉ seqWord sq := by decide
  exact ⟨List.cons_ne_nil _ _, hspace sq⟩

/-- The `seq=` operand reads back. -/
theorem seqOperand_seqWord (sq : BitVec 3) (words : List (List Char)) :
    seqOperand (seqWord sq :: words) = some (sq, words) := by
  have hdigit : ∀ sq : BitVec 3, 48 ≤ (Char.ofNat (48 + sq.toNat)).toNat ∧ (Char.ofNat (48 + sq.toNat)).toNat ≤ 55 ∧
      BitVec.ofNat 3 ((Char.ofNat (48 + sq.toNat)).toNat - 48) = sq := by decide
  obtain ⟨hlow, hhigh, hvalue⟩ := hdigit sq
  rw [seqWord, seqOperand, if_pos ⟨hlow, hhigh⟩, hvalue]

/-- The operands of a command as words: `seq=` where it is used, and the data. -/
def operandWords (o : Op) (sq : BitVec 3) (data : Bytes) : List (List Char) :=
  (if usesSq o = true then [seqWord sq] else []) ++ dataWords data

/-- A written line is the mnemonic and the operands, with one space before each operand. -/
theorem writeLine_eq (o : Op) (sq : BitVec 3) (data : Bytes) :
    writeLine o sq data = opName o ++ (operandWords o sq data).flatMap (' ' :: ·) := by
  unfold writeLine operandWords dataWords
  split <;> split <;> simp [seqWord]

/-- Every operand written is a word. -/
theorem isWord_of_mem_operandWords {o : Op} {sq : BitVec 3} {data : Bytes} {word : List Char}
    (hmem : word ∈ operandWords o sq data) : IsWord word := by
  rcases List.mem_append.mp hmem with hseq | hdata
  · split at hseq
    · rw [List.mem_singleton.mp hseq]
      exact seqWord_isWord sq
    · cases hseq
  · unfold dataWords at hdata
    split at hdata
    · cases hdata
    next hne =>
      rw [List.mem_singleton.mp hdata]
      exact hexText_isWord hne

/-- The operands written read back, where `SQ` is 0 unless it is used. -/
theorem assembleOp_operandWords {o : Op} {sq : BitVec 3} (data : Bytes) (hsq : usesSq o = false → sq = 0#3) :
    assembleOp o (operandWords o sq data) = some (.command (commandWord o sq) data) := by
  cases hused : usesSq o with
  | true =>
    simp only [assembleOp, operandWords, hused, if_true, List.singleton_append, seqOperand_seqWord,
      dataOperand_dataWords, Option.map_some]
  | false =>
    simp [assembleOp, operandWords, hused, hsq hused, dataOperand_dataWords]

/-- Settles O54: the line splits into the words written, and each reads back. -/
theorem writtenCommandAssembles : Obligations.WrittenCommandAssembles := by
  intro o sq data hsq
  have hwords : wordsFrom [] (writeLine o sq data) = opName o :: operandWords o sq data := by
    rw [writeLine_eq]
    exact wordsFrom_spaced (opName_isWord o) fun _ => isWord_of_mem_operandWords
  rw [assembleLine_of_op hwords, assembleOp_operandWords data hsq]

/-- A pseudo-command that takes a command's operands assembles, whatever follows, as that command. -/
theorem assembleLine_pseudo_eq_op {p : Pseudo} {o : Op} (hexpand : ∀ words, assemblePseudo p words = assembleOp o words)
    (tail : List Char) :
    assembleLine (pseudoName p ++ ' ' :: tail) = assembleLine (opName o ++ ' ' :: tail) := by
  rw [assembleLine_of_pseudo (wordsFrom_word_space (pseudoName_isWord p) tail), hexpand,
    assembleLine_of_op (wordsFrom_word_space (opName_isWord o) tail)]

/-- READ_ACK stands for the read with the acknowledgment timeout, 1000 ms (R76). -/
theorem assembleLine_readAck :
    assembleLine (pseudoName .readAck) = some (.command 0x0031#16 [0xE8#8, 0x03#8, 0x00#8, 0x00#8]) := by
  rw [assembleLine_of_pseudo (wordsFrom_word (pseudoName_isWord .readAck))]
  decide

/-- Settles O56: each pseudo-command's mnemonic is found, and READ_ACK's line is the written form of its command. -/
theorem pseudoCommandsExpand : Obligations.PseudoCommandsExpand := by
  have hwritten : writeLine .rxReadFrame 0#3 [0xE8#8, 0x03#8, 0x00#8, 0x00#8] =
      opName .rxReadFrame ++ [' ', 'e', '8', '0', '3', '0', '0', '0', '0'] := by decide
  refine ⟨assembleLine_pseudo_eq_op fun _ => rfl, assembleLine_pseudo_eq_op fun _ => rfl, ?_, assembleLine_readAck,
    fun line h => name_of_assembleLine⟩
  rw [assembleLine_readAck, ← hwritten, writtenCommandAssembles _ _ _ fun _ => rfl]
  decide

end Sys2Proof.Proofs
end

section
/-! Maps of the register that are linear over exclusive or: shifts, masks, and what is put together from them. Their
values on the sixteen single bits determine them. -/

namespace Sys2Proof.Proofs

open Sys2Proof.Machine Sys2Proof.Laws

/-- Linear over exclusive or. -/
def IsLinear (f : U16 → U16) : Prop := ∀ a b, f (a ^^^ b) = f a ^^^ f b

theorem isLinear_id : IsLinear id := fun _ _ => rfl

theorem isLinear_shiftLeft (n : Nat) : IsLinear (· <<< n) := fun a b => BitVec.shiftLeft_xor_distrib a b n

theorem isLinear_shiftRight (n : Nat) : IsLinear (· >>> n) := fun a b => BitVec.ushiftRight_xor_distrib a b n

theorem isLinear_mask (mask : U16) : IsLinear (· &&& mask) := by
  intro a b
  ext i hi
  simp only [BitVec.getElem_and, BitVec.getElem_xor, Bool.and_xor_distrib_right]

/-- The polynomial, added where the top bit is set. -/
theorem isLinear_polynomial (poly : U16) : IsLinear fun r => if r.getLsbD 15 then poly else 0#16 := by
  intro a b
  dsimp only
  rw [BitVec.getLsbD_xor]
  cases a.getLsbD 15 <;> cases b.getLsbD 15 <;> simp

theorem IsLinear.xor {f g : U16 → U16} (hf : IsLinear f) (hg : IsLinear g) : IsLinear fun r => f r ^^^ g r := by
  intro a b
  dsimp only
  rw [hf, hg]
  ac_rfl

theorem IsLinear.comp {f g : U16 → U16} (hf : IsLinear f) (hg : IsLinear g) : IsLinear (f ∘ g) := by
  intro a b
  rw [Function.comp_apply, hg, hf]
  rfl

theorem IsLinear.iterate {f : U16 → U16} (hf : IsLinear f) (n : Nat) : IsLinear f^[n] := by
  induction n with
  | zero => exact isLinear_id
  | succ n ih => exact ih.comp hf

theorem IsLinear.map_zero {f : U16 → U16} (hf : IsLinear f) : f 0#16 = 0#16 := by
  have hself := hf 0#16 0#16
  rwa [BitVec.xor_self, BitVec.xor_self] at hself

/-- Linear maps that agree on the single bits agree on each register without bits from place `k` on: its bits are taken
off from the top. -/
theorem IsLinear.eq_of_bits_below {f g : U16 → U16} (hf : IsLinear f) (hg : IsLinear g)
    (hbits : ∀ k < 16, f (BitVec.twoPow 16 k) = g (BitVec.twoPow 16 k)) {k : Nat} (hk : k ≤ 16) {r : U16}
    (hr : ∀ i, k ≤ i → r.getLsbD i = false) : f r = g r := by
  induction k generalizing r with
  | zero =>
    have hzero : r = 0#16 := BitVec.eq_of_getLsbD_eq fun i _ => by rw [hr i i.zero_le, BitVec.getLsbD_zero]
    rw [hzero, hf.map_zero, hg.map_zero]
  | succ k ih =>
    cases htop : r.getLsbD k with
    | false =>
      refine ih (by omega) fun i hi => ?_
      rcases hi.eq_or_lt with rfl | hlt
      · exact htop
      · exact hr i hlt
    | true =>
      have hsplit : r = (r ^^^ BitVec.twoPow 16 k) ^^^ BitVec.twoPow 16 k := by
        rw [BitVec.xor_assoc, BitVec.xor_self, BitVec.xor_zero]
      have hbelow : f (r ^^^ BitVec.twoPow 16 k) = g (r ^^^ BitVec.twoPow 16 k) := by
        refine ih (by omega) fun i hi => ?_
        rw [BitVec.getLsbD_xor, BitVec.getLsbD_twoPow]
        rcases hi.eq_or_lt with rfl | hlt
        · simpa [htop] using hk
        · simp [hr i hlt, hlt.ne]
      rw [hsplit, hf, hg, hbelow, hbits k hk]

/-- Linear maps that agree on the single bits are the same map. -/
theorem IsLinear.eq_of_bits {f g : U16 → U16} (hf : IsLinear f) (hg : IsLinear g)
    (hbits : ∀ k < 16, f (BitVec.twoPow 16 k) = g (BitVec.twoPow 16 k)) (r : U16) : f r = g r :=
  hf.eq_of_bits_below hg hbits le_rfl fun _ hi => BitVec.getLsbD_of_ge r _ hi

end Sys2Proof.Proofs
end

section
/-! The byte step against the bit-serial CRC (spec/40_checksum.md R100, R101). Both take the byte in at the top of the
register, and what they do then is linear. -/

namespace Sys2Proof.Proofs

open Sys2Proof.Machine Sys2Proof.Laws

/-- One bit of R101 is linear. -/
theorem isLinear_crcBit : IsLinear crcBit := (isLinear_shiftLeft 1).xor (isLinear_polynomial 0x1021#16)

/-- The first operation of R100: the register's two bytes exchanged. -/
def swapBytes (r : U16) : U16 := r >>> 8 ||| r <<< 8

/-- The last three operations of R100, on the register that has the byte in it. -/
def mixByte (r : U16) : U16 :=
  let r := r ^^^ ((r &&& 0xFF#16) >>> 4)
  let r := r ^^^ (r <<< 12)
  r ^^^ ((r &&& 0xFF#16) <<< 5)

/-- The byte step in these parts (R100). -/
theorem crcStep_eq_mixByte (r : U16) (x : Byte) : crcStep r x = mixByte (swapBytes r ^^^ x.setWidth 16) := rfl

/-- The exchange is linear: the shifts leave no bit in common. -/
theorem isLinear_swapBytes : IsLinear swapBytes := by
  intro a b
  ext i hi
  by_cases hlow : i < 8
  · simp [swapBytes, hlow]
  · have hout : 16 ≤ 8 + i := by omega
    simp [swapBytes, hlow, hout]

/-- A byte at the top of the register comes to its bottom. -/
theorem swapBytes_highByte (x : Byte) : swapBytes (x.setWidth 16 <<< 8) = x.setWidth 16 := by
  ext i hi
  by_cases hlow : i < 8
  · have hin : 8 + i < 16 := by omega
    simp [swapBytes, hlow, hin]
  · have hout : x.getLsbD i = false := BitVec.getLsbD_of_ge x i (not_lt.mp hlow)
    simp [swapBytes, hout]

/-- Each of the three operations adds a linear map of the register to it. -/
theorem isLinear_mixByte : IsLinear mixByte := by
  have hthird : IsLinear fun r => r ^^^ ((r &&& 0xFF#16) >>> 4) :=
    isLinear_id.xor ((isLinear_shiftRight 4).comp (isLinear_mask _))
  have hfourth : IsLinear fun r => r ^^^ (r <<< 12) := isLinear_id.xor (isLinear_shiftLeft 12)
  have hfifth : IsLinear fun r => r ^^^ ((r &&& 0xFF#16) <<< 5) :=
    isLinear_id.xor ((isLinear_shiftLeft 5).comp (isLinear_mask _))
  exact hfifth.comp (hfourth.comp hthird)

/-- Adding the byte after the exchange is adding it at the top before, where R101 adds it. -/
theorem crcStep_eq_mixByte_swapBytes (r : U16) (x : Byte) :
    crcStep r x = mixByte (swapBytes (r ^^^ (x.setWidth 16 <<< 8))) := by
  rw [crcStep_eq_mixByte, isLinear_swapBytes, swapBytes_highByte]

/-- The two agree for every register and byte (R101): once the byte is in, they are linear and agree on every single
bit. -/
theorem crcStep_eq_crcBitSerial (r : U16) (x : Byte) : crcStep r x = crcBitSerial r x := by
  have hbits : ∀ k < 16, (mixByte ∘ swapBytes) (BitVec.twoPow 16 k) = crcBit^[8] (BitVec.twoPow 16 k) := by decide
  rw [crcStep_eq_mixByte_swapBytes]
  exact (isLinear_mixByte.comp isLinear_swapBytes).eq_of_bits (isLinear_crcBit.iterate 8) hbits _

/-- The fold of the byte step is the bit-serial CRC over the bytes. -/
theorem crcFold_eq_foldl_crcBitSerial (r : U16) (data : Bytes) : crcFold r data = data.foldl crcBitSerial r := by
  rw [crcFold, funext₂ crcStep_eq_crcBitSerial]

/-- Settles O24: the byte steps agree, hence the folds; the check value is computed. -/
theorem crcStepIsTheBitSerialCrc : Obligations.CrcStepIsTheBitSerialCrc :=
  ⟨crcStep_eq_crcBitSerial, crcFold_eq_foldl_crcBitSerial ckInit, by decide⟩

end Sys2Proof.Proofs
end

section
/-! CRC_INIT, CRC_UPDATE and CHECKSUM (spec/40_checksum.md R102 to R105). -/

namespace Sys2Proof.Proofs

open Sys2Proof.Machine Sys2Proof.Laws

/-- What CRC_INIT does (R102). -/
theorem exec_crcInit (s : State) : exec .crcInit s = .next (completeCrc ckInit s) := rfl

/-- What CRC_UPDATE does (R103). -/
theorem exec_crcUpdate (data : Bytes) (s : State) :
    exec (.crcUpdate data) s = .next (completeCrc (crcFold s.crc data) s) := rfl

/-- What CHECKSUM does (R104). -/
theorem exec_checksum (data : Bytes) (s : State) :
    exec (.checksum data) s = .next (completeCrc (checksum data) s) := rfl

/-- Settles O21: the completion writes `CK_INIT`. -/
theorem crcInitResetsTheRegister : Obligations.CrcInitResetsTheRegister := by
  intro s
  rw [exec_crcInit]
  rfl

/-- Settles O22: the completion writes the fold of the byte step, which is the bit-serial CRC. -/
theorem crcUpdateFoldsTheBytes : Obligations.CrcUpdateFoldsTheBytes := by
  intro s data
  rw [exec_crcUpdate, crcFold_eq_foldl_crcBitSerial]
  rfl

/-- Settles O23: the completion writes the fold from `CK_INIT`, which over no bytes is `CK_INIT`. -/
theorem checksumStartsFromInit : Obligations.ChecksumStartsFromInit := by
  intro s data
  refine ⟨?_, ?_⟩
  · rw [exec_checksum]
    rfl
  · rintro rfl
    rfl

/-- Folding one piece after another folds the pieces joined. -/
theorem crcFold_append (r : U16) (bytes more : Bytes) : crcFold r (bytes ++ more) = crcFold (crcFold r bytes) more :=
  List.foldl_append

/-- The step that takes the word of CRC_INIT. -/
theorem step_crcInit {s : State} {rest : List HostItem} (hlegal : ParametersLegal s)
    (hpending : s.pending = .command 0x0001#16 [] :: rest) :
    step s = .next (completeCrc ckInit { s with pending := rest }) :=
  stepRunsDecodedInstruction s _ rest .crcInit hlegal hpending rfl

/-- The step that takes the word of CRC_UPDATE with a piece that keeps to `MAX_DATA`. -/
theorem step_crcUpdate {s : State} {data : Bytes} {rest : List HostItem} (hlegal : ParametersLegal s)
    (hlength : data.length ≤ maxData s.cfg) (hpending : s.pending = .command 0x0002#16 data :: rest) :
    step s = .next (completeCrc (crcFold s.crc data) { s with pending := rest }) := by
  have hdecode : decode (maxData s.cfg) (.command 0x0002#16 data) = .ok (.crcUpdate data) :=
    decodeCommand_commandWord (o := .crcUpdate) (sq := 0#3) (.inl rfl) ((overLimit_eq_false_iff ..).mpr hlength) rfl
  exact stepRunsDecodedInstruction s _ rest _ hlegal hpending hdecode

/-- Taking one CRC_UPDATE after another folds all their bytes into `CRC`, and leaves all but the last completion as it
was (R103). -/
theorem run_crcUpdates (pieces : List Bytes) (rest : List HostItem) (s : State) (hlegal : ParametersLegal s)
    (hlengths : ∀ d ∈ pieces, d.length ≤ maxData s.cfg)
    (hpending : s.pending = (pieces.map fun d => .command 0x0002#16 d) ++ rest) :
    ∃ code reply, run pieces.length s = .next { s with
      crc := crcFold s.crc pieces.flatten, pending := rest, result := code, reply := reply } := by
  induction pieces generalizing s with
  | nil => exact ⟨s.result, s.reply, by rw [← show s.pending = rest from hpending]; rfl⟩
  | cons d pieces ih =>
    rw [List.map_cons, List.cons_append] at hpending
    obtain ⟨hlength, hlengths⟩ := List.forall_mem_cons.mp hlengths
    obtain ⟨code, reply, hrun⟩ := ih
      (completeCrc (crcFold s.crc d) { s with pending := (pieces.map fun d => .command 0x0002#16 d) ++ rest })
      hlegal hlengths rfl
    refine ⟨code, reply, ?_⟩
    rw [List.length_cons, run_succ _ _ _ (step_crcUpdate hlegal hlength hpending), hrun, List.flatten_cons,
      crcFold_append]
    rfl

/-- Settles O25: CRC_INIT starts the fold from `CK_INIT`, and the updates carry it on. -/
theorem streamingGivesTheChecksum : Obligations.StreamingGivesTheChecksum := by
  intro s pieces rest hlegal hlengths hpending
  rw [List.cons_append] at hpending
  obtain ⟨code, reply, hrun⟩ := run_crcUpdates pieces rest
    (completeCrc ckInit { s with pending := (pieces.map fun d => .command 0x0002#16 d) ++ rest }) hlegal hlengths rfl
  rw [run_succ _ _ _ (step_crcInit hlegal hpending), hrun]
  exact ⟨_, rfl, rfl, rfl, rfl, rfl, rfl, rfl⟩

end Sys2Proof.Proofs
end

section
/-! SLIP_ENCODE (spec/41_framer.md R120, R121): the length of its output and the shape of an encoded frame (R124). -/

namespace Sys2Proof.Proofs

open Sys2Proof.Machine Sys2Proof.Laws

/-- SLIP_ENCODE's completion. -/
theorem exec_slipEncode (data : Bytes) (s : State) :
    exec (.slipEncode data) s = .next (completeBytes (slipEncode s.cfg.slip data) s) := rfl

/-- The constraints of R10, each on its own. -/
theorem slipLegal_iff (p : SlipParams) :
    slipLegal p = true ↔ p.slipEnd ≠ p.slipEsc ∧ p.slipEscEnd ≠ p.slipEscEsc ∧
      p.slipEscEnd ≠ p.slipEnd ∧ p.slipEscEsc ≠ p.slipEnd := by
  simp [slipLegal, and_assoc]

/-! ## One stuffed byte -/

/-- The delimiter is sent as an escape pair. -/
@[simp] theorem stuff_slipEnd (p : SlipParams) : stuff p p.slipEnd = [p.slipEsc, p.slipEscEnd] := if_pos rfl

/-- The escape byte is sent as an escape pair. -/
theorem stuff_slipEsc {p : SlipParams} (h : p.slipEnd ≠ p.slipEsc) : stuff p p.slipEsc = [p.slipEsc, p.slipEscEsc] :=
  (if_neg h.symm).trans (if_pos rfl)

/-- Every other byte is sent verbatim. -/
theorem stuff_of_ne {p : SlipParams} {x : Byte} (hend : x ≠ p.slipEnd) (hesc : x ≠ p.slipEsc) : stuff p x = [x] :=
  (if_neg hend).trans (if_neg hesc)

/-- An escape pair is one byte longer than the byte it stands for. -/
theorem length_stuff (p : SlipParams) (x : Byte) :
    (stuff p x).length = 1 + if (x == p.slipEnd || x == p.slipEsc) = true then 1 else 0 := by
  by_cases hend : x = p.slipEnd
  · simp [hend]
  · by_cases hesc : x = p.slipEsc
    · simp [hesc, stuff_slipEsc (hesc ▸ Ne.symm hend)]
    · simp [stuff_of_ne hend hesc, hend, hesc]

/-- Under R10 no stuffed byte holds a delimiter. -/
theorem slipEnd_not_mem_stuff {p : SlipParams} (hlegal : slipLegal p = true) (x : Byte) :
    p.slipEnd ∉ stuff p x := by
  obtain ⟨hesc, -, hescEnd, hescEsc⟩ := (slipLegal_iff p).mp hlegal
  by_cases hx : x = p.slipEnd
  · simp [hx, hesc, hescEnd.symm]
  · by_cases hx' : x = p.slipEsc
    · simp [hx', stuff_slipEsc hesc, hesc, hescEsc.symm]
    · simp [stuff_of_ne hx hx', Ne.symm hx]

/-! ## The body of a frame -/

/-- The body is as long as the data, and one byte longer for each escape pair. -/
theorem length_flatMap_stuff (p : SlipParams) (data : Bytes) :
    (data.flatMap (stuff p)).length =
      data.length + data.countP fun b => b == p.slipEnd || b == p.slipEsc := by
  induction data with
  | nil => rfl
  | cons x data ih =>
    rw [List.flatMap_cons, List.length_append, ih, length_stuff, List.length_cons, List.countP_cons]
    omega

/-- Under R10 the body holds no delimiter. -/
theorem slipEnd_not_mem_flatMap_stuff {p : SlipParams} (hlegal : slipLegal p = true) (data : Bytes) :
    p.slipEnd ∉ data.flatMap (stuff p) := by
  intro hmem
  obtain ⟨x, -, hx⟩ := List.mem_flatMap.mp hmem
  exact slipEnd_not_mem_stuff hlegal x hx

/-- Settles O26: the two delimiters come on top of the body's length. -/
theorem slipEncodeOutputLength : Obligations.SlipEncodeOutputLength := by
  intro s data
  have hlength : (slipEncode s.cfg.slip data).length = 2 + data.length +
      data.countP fun b => b == s.cfg.slip.slipEnd || b == s.cfg.slip.slipEsc := by
    simp only [slipEncode, List.length_append, List.length_singleton, length_flatMap_stuff]
    omega
  have hcount : data.countP (fun b => b == s.cfg.slip.slipEnd || b == s.cfg.slip.slipEsc) ≤ data.length :=
    List.countP_le_length
  refine ⟨slipEncode s.cfg.slip data, exec_slipEncode data s, ?_, hlength, by omega⟩
  rw [slipEncode, List.flatMap_def]

/-! ## Escape bytes and their continuations -/

/-- Every escape byte of a sequence is followed by a continuation byte (R124). -/
def EscapesContinued (p : SlipParams) (bytes : Bytes) : Prop :=
  ∀ i, bytes[i]? = some p.slipEsc →
    bytes[i + 1]? = some p.slipEscEnd ∨ bytes[i + 1]? = some p.slipEscEsc

theorem escapesContinued_nil (p : SlipParams) : EscapesContinued p [] := by
  intro i hi
  simp at hi

/-- A byte that is no escape byte needs no continuation. -/
theorem EscapesContinued.cons_of_ne {p : SlipParams} {b : Byte} {bytes : Bytes} (hb : b ≠ p.slipEsc)
    (h : EscapesContinued p bytes) : EscapesContinued p (b :: bytes) := by
  intro i hi
  cases i with
  | zero => exact absurd (Option.some.inj hi) hb
  | succ i => exact h i hi

/-- An escape byte followed by a continuation byte. -/
theorem EscapesContinued.cons_slipEsc {p : SlipParams} {c : Byte} {bytes : Bytes}
    (hc : c = p.slipEscEnd ∨ c = p.slipEscEsc) (h : EscapesContinued p (c :: bytes)) :
    EscapesContinued p (p.slipEsc :: c :: bytes) := by
  intro i hi
  cases i with
  | zero => exact hc.imp (congrArg some) (congrArg some)
  | succ i => exact h i hi

/-- Where no continuation byte equals the escape byte, a stuffed byte in front leaves every escape byte continued. -/
theorem EscapesContinued.stuff_append {p : SlipParams} {bytes : Bytes} (hend : p.slipEscEnd ≠ p.slipEsc)
    (hesc : p.slipEscEsc ≠ p.slipEsc) (x : Byte) (h : EscapesContinued p bytes) :
    EscapesContinued p (stuff p x ++ bytes) := by
  unfold stuff
  split
  · exact (h.cons_of_ne hend).cons_slipEsc (.inl rfl)
  · split
    · exact (h.cons_of_ne hesc).cons_slipEsc (.inr rfl)
    next hx => exact h.cons_of_ne hx

/-- Stuffed data in front leaves every escape byte continued. -/
theorem EscapesContinued.flatMap_stuff_append {p : SlipParams} {bytes : Bytes} (hend : p.slipEscEnd ≠ p.slipEsc)
    (hesc : p.slipEscEsc ≠ p.slipEsc) (data : Bytes) (h : EscapesContinued p bytes) :
    EscapesContinued p (data.flatMap (stuff p) ++ bytes) := by
  induction data with
  | nil => exact h
  | cons x data ih =>
    rw [List.flatMap_cons, List.append_assoc]
    exact ih.stuff_append hend hesc x

/-- Settles O27: the body is free of delimiters byte by byte, and its escape bytes stand at the head of escape pairs. -/
theorem encodedFrameShape : Obligations.EncodedFrameShape := by
  intro p data hlegal
  refine ⟨⟨_, rfl, slipEnd_not_mem_flatMap_stuff hlegal data⟩, fun hend hesc => ?_⟩
  have hdelimiter : p.slipEnd ≠ p.slipEsc := ((slipLegal_iff p).mp hlegal).1
  have hlast : EscapesContinued p [p.slipEnd] := (escapesContinued_nil p).cons_of_ne hdelimiter
  exact (hlast.flatMap_stuff_append hend hesc data).cons_of_ne hdelimiter

/-- Settles O28: with 0xDB for both `SLIP_ESC` and `SLIP_ESC_END`, the byte 0xC0 is framed as C0 DB DB C0, and its
second 0xDB stands before the closing delimiter. -/
theorem escapeClauseNeedsDistinctEscapes : Obligations.EscapeClauseNeedsDistinctEscapes :=
  ⟨{ SlipParams.default with slipEscEnd := 0xDB#8 }, [0xC0#8], 2, by decide, by decide, by decide⟩

end Sys2Proof.Proofs
end

section
/-! SLIP_DECODE (spec/41_framer.md R122, R123): its equations, R123's loop by index, where it completes, and the round
trip (R126). -/

namespace Sys2Proof.Proofs

open Sys2Proof.Machine Sys2Proof.Laws

/-- SLIP_DECODE's completion. -/
theorem exec_slipDecode (data : Bytes) (s : State) :
    exec (.slipDecode data) s =
      .next (decodeCompletion (slipDecode s.cfg.slip s.cfg.escPolicy data) s) := rfl

/-- SLIP_DECODE's completion where the data decodes. -/
theorem exec_slipDecode_of_some {data out : Bytes} {s : State}
    (h : slipDecode s.cfg.slip s.cfg.escPolicy data = some out) :
    exec (.slipDecode data) s = .next (completeBytes out s) := by
  rw [exec_slipDecode, h]
  rfl

/-! ## The branches of R123 -/

section
variable {p : SlipParams} {policy : EscPolicy}

@[simp] theorem unstuff_nil : unstuff p policy [] = some [] := rfl

/-- A byte that is no escape byte is kept. -/
theorem unstuff_cons_of_ne {b : Byte} (hb : b ≠ p.slipEsc) (rest : Bytes) :
    unstuff p policy (b :: rest) = (unstuff p policy rest).map (b :: ·) := by
  cases rest with
  | nil => exact if_pos hb
  | cons c rest => exact if_pos hb

/-- An escape byte at the end has no continuation. -/
theorem unstuff_lone_slipEsc :
    unstuff p policy [p.slipEsc] = if policy = .reject then none else some [] := by
  cases policy <;> simp [unstuff]

/-- The escape pair for the delimiter. -/
theorem unstuff_slipEsc_slipEscEnd (rest : Bytes) :
    unstuff p policy (p.slipEsc :: p.slipEscEnd :: rest) = (unstuff p policy rest).map (p.slipEnd :: ·) := by
  simp [unstuff]

/-- The escape pair for the escape byte. -/
theorem unstuff_slipEsc_slipEscEsc (h : p.slipEscEnd ≠ p.slipEscEsc) (rest : Bytes) :
    unstuff p policy (p.slipEsc :: p.slipEscEsc :: rest) = (unstuff p policy rest).map (p.slipEsc :: ·) := by
  simp [unstuff, h.symm]

/-- An unrecognized continuation. -/
theorem unstuff_slipEsc_of_ne {c : Byte} (hend : c ≠ p.slipEscEnd) (hesc : c ≠ p.slipEscEsc) (rest : Bytes) :
    unstuff p policy (p.slipEsc :: c :: rest) = if policy = .reject then none else unstuff p policy rest := by
  cases policy <;> simp [unstuff, hend, hesc]

/-- Under R10 a stuffed byte decodes to the byte, whatever the policy (R125). -/
theorem unstuff_stuff_append (hlegal : slipLegal p = true) (x : Byte) (rest : Bytes) :
    unstuff p policy (stuff p x ++ rest) = (unstuff p policy rest).map (x :: ·) := by
  obtain ⟨hdelimiter, hdistinct, -, -⟩ := (slipLegal_iff p).mp hlegal
  by_cases hend : x = p.slipEnd
  · rw [hend, stuff_slipEnd]
    exact unstuff_slipEsc_slipEscEnd rest
  · by_cases hesc : x = p.slipEsc
    · rw [hesc, stuff_slipEsc hdelimiter]
      exact unstuff_slipEsc_slipEscEsc hdistinct rest
    · rw [stuff_of_ne hend hesc]
      exact unstuff_cons_of_ne hesc rest

/-- Under R10 an encoded body decodes to the data. -/
theorem unstuff_flatMap_stuff (hlegal : slipLegal p = true) (data : Bytes) :
    unstuff p policy (data.flatMap (stuff p)) = some data := by
  induction data with
  | nil => rfl
  | cons x data ih => rw [List.flatMap_cons, unstuff_stuff_append hlegal, ih, Option.map_some]

/-- Bytes without an escape byte are all kept. -/
theorem unstuff_of_slipEsc_not_mem {bytes : Bytes} (h : p.slipEsc ∉ bytes) : unstuff p policy bytes = some bytes := by
  induction bytes with
  | nil => rfl
  | cons b bytes ih =>
    rw [unstuff_cons_of_ne (List.ne_of_not_mem_cons h).symm, ih (List.not_mem_of_not_mem_cons h), Option.map_some]

end

/-! ## The round trip -/

/-- Under R10, stripping the delimiters of an encoded frame leaves its body (R122). -/
theorem stripEnds_slipEncode {p : SlipParams} (hlegal : slipLegal p = true) (data : Bytes) :
    stripEnds p (slipEncode p data) = data.flatMap (stuff p) := by
  have hbody : (data.flatMap (stuff p)).filter (fun b => b != p.slipEnd) = data.flatMap (stuff p) :=
    List.filter_eq_self.mpr fun b hb =>
      bne_iff_ne.mpr fun hend => slipEnd_not_mem_flatMap_stuff hlegal data (hend ▸ hb)
  simp [stripEnds, slipEncode, hbody]

/-- R126 for the two functions. -/
theorem slipDecode_slipEncode {p : SlipParams} (hlegal : slipLegal p = true) (policy : EscPolicy) (data : Bytes) :
    slipDecode p policy (slipEncode p data) = some data := by
  rw [slipDecode, stripEnds_slipEncode hlegal, unstuff_flatMap_stuff hlegal]

/-- Settles O29: SLIP_ENCODE keeps the parameters, so that SLIP_DECODE undoes it under the same SLIP bytes. -/
theorem slipRoundTrip : Obligations.SlipRoundTrip := by
  refine ⟨fun p policy data hlegal => slipDecode_slipEncode hlegal policy data, fun s data hlegal => ?_⟩
  have hdecode : exec (.slipDecode (slipEncode s.cfg.slip data)) (completeBytes (slipEncode s.cfg.slip data) s) =
      .next (completeBytes data (completeBytes (slipEncode s.cfg.slip data) s)) :=
    exec_slipDecode_of_some (slipDecode_slipEncode hlegal s.cfg.escPolicy data)
  exact ⟨_, _, _, _, exec_slipEncode data s, completeBytes_reply .., hdecode, completeBytes_reply ..⟩

/-! ## R123's loop -/

/-- Putting a byte in front and the output so far in front of that is to append the byte to the output. -/
theorem map_append_map_cons (o : Bytes) (b : Byte) (rest : Option Bytes) :
    (rest.map (b :: ·)).map (o ++ ·) = rest.map ((o ++ [b]) ++ ·) := by
  simp [Function.comp_def]

/-- From index `i` with output `o`, the loop decodes what is left from `i` on and puts it behind `o`. -/
theorem decodeLoop_eq_unstuff_drop (p : SlipParams) (policy : EscPolicy) (bytes : Bytes) {fuel i : Nat} (o : Bytes)
    (hfuel : bytes.length ≤ i + fuel) :
    decodeLoop p policy bytes fuel i o = (unstuff p policy (bytes.drop i)).map (o ++ ·) := by
  induction fuel generalizing i o with
  | zero =>
    rw [List.drop_eq_nil_of_le (show bytes.length ≤ i from hfuel)]
    simp [decodeLoop]
  | succ fuel ih =>
    unfold decodeLoop
    split
    case isFalse hend => simp [List.drop_eq_nil_of_le (Nat.le_of_not_lt hend)]
    case isTrue hi =>
      rw [List.drop_eq_getElem_cons hi, List.getD_eq_getElem _ _ hi]
      split
      case isTrue hb =>
        rw [ih _ (by omega), unstuff_cons_of_ne hb, map_append_map_cons]
      case isFalse hb =>
        rw [not_not.mp hb]
        split
        case isTrue hlast =>
          rw [List.drop_eq_nil_of_le hlast.ge, unstuff_lone_slipEsc]
          cases policy with
          | reject => rfl
          | drop => simp [ih o (i := i + 1) (by omega), List.drop_eq_nil_of_le hlast.ge]
        case isFalse hlast =>
          have hnext : i + 1 < bytes.length := by omega
          rw [List.drop_eq_getElem_cons hnext, List.getD_eq_getElem _ _ hnext]
          split
          case isTrue hc =>
            rw [hc, ih _ (by omega), unstuff_slipEsc_slipEscEnd, map_append_map_cons]
          case isFalse hescEnd =>
            split
            case isTrue hc =>
              rw [hc, ih _ (by omega), unstuff_slipEsc_slipEscEsc (hc ▸ Ne.symm hescEnd), map_append_map_cons]
            case isFalse hescEsc =>
              rw [unstuff_slipEsc_of_ne hescEnd hescEsc]
              cases policy with
              | reject => rfl
              | drop => exact ih o (by omega)

/-- The decoder is R123's loop over the stripped data, run from its start. -/
theorem slipDecode_eq_decodeLoop (p : SlipParams) (policy : EscPolicy) (data : Bytes) :
    slipDecode p policy data = decodeLoop p policy (data.filter fun b => b != p.slipEnd) data.length 0 [] := by
  have hfuel : (data.filter fun b => b != p.slipEnd).length ≤ 0 + data.length := by
    simpa using List.length_filter_le _ data
  rw [decodeLoop_eq_unstuff_drop p policy _ [] hfuel]
  simp [slipDecode, stripEnds]

/-- Settles O30: the loop's result decides the completion. -/
theorem slipDecodeRunsItsLoop : Obligations.SlipDecodeRunsItsLoop := by
  intro s data
  rw [exec_slipDecode, slipDecode_eq_decodeLoop]
  cases decodeLoop s.cfg.slip s.cfg.escPolicy (data.filter fun b => b != s.cfg.slip.slipEnd) data.length 0 [] with
  | none => rfl
  | some out => rfl

/-! ## Where it completes -/

/-- Under `drop` no branch of R123 raises. -/
theorem unstuff_drop_isSome (p : SlipParams) : ∀ bytes : Bytes, (unstuff p .drop bytes).isSome
  | [] => rfl
  | [b] => by
    by_cases hb : b = p.slipEsc
    · rw [hb, unstuff_lone_slipEsc]
      rfl
    · rw [unstuff_cons_of_ne hb]
      rfl
  | b :: c :: rest => by
    by_cases hb : b = p.slipEsc
    · rw [hb]
      have hrest := unstuff_drop_isSome p rest
      by_cases hend : c = p.slipEscEnd
      · rwa [hend, unstuff_slipEsc_slipEscEnd, Option.isSome_map]
      · by_cases hesc : c = p.slipEscEsc
        · rwa [hesc, unstuff_slipEsc_slipEscEsc (hesc ▸ Ne.symm hend), Option.isSome_map]
        · rwa [unstuff_slipEsc_of_ne hend hesc]
    · rw [unstuff_cons_of_ne hb, Option.isSome_map]
      exact unstuff_drop_isSome p (c :: rest)

/-- Settles O31: both clauses are about what is left once the delimiters are stripped. -/
theorem slipDecodeCompletes : Obligations.SlipDecodeCompletes := by
  intro s data
  refine ⟨fun hdrop => ?_, fun hesc => ?_⟩
  · obtain ⟨out, hout⟩ := Option.isSome_iff_exists.mp (unstuff_drop_isSome s.cfg.slip (stripEnds s.cfg.slip data))
    exact ⟨out, exec_slipDecode_of_some (hdrop ▸ hout)⟩
  · have hstripped : s.cfg.slip.slipEsc ∉ stripEnds s.cfg.slip data := fun h => hesc (List.mem_of_mem_filter h)
    exact exec_slipDecode_of_some (unstuff_of_slipEsc_not_mem hstripped)

end Sys2Proof.Proofs
end

section
/-! The packet layer (spec/42_packet.md): PACK_HEADER, BUILD_PACKET and PARSE_ACK, each said once, and what a packet the
block built decodes and parses to. -/

namespace Sys2Proof.Proofs

open Sys2Proof.Machine Sys2Proof.Laws

/-! ## PACK_HEADER -/

/-- PACK_HEADER within the limit (R142). -/
theorem exec_packHeader_of_le {n : U16} (hn : n.toNat ≤ 4095) (sq : BitVec 3) (s : State) :
    exec (.packHeader sq n) s =
      .next (complete .ok (headerValue sq (n.setWidth 12)) (header sq (n.setWidth 12)) s) :=
  congrArg _ (if_neg (Nat.not_lt.mpr hn))

/-- PACK_HEADER above the limit. -/
theorem exec_packHeader_of_gt {n : U16} (hn : 4095 < n.toNat) (sq : BitVec 3) (s : State) :
    exec (.packHeader sq n) s = .next (raiseError .payloadTooLong s) :=
  congrArg _ (if_pos hn)

/-- Bytes shifted to their own places and joined by `or` are the bytes put side by side: bit by bit, a byte has no bit
outside its own eight places. -/
theorem or_shiftLeft_eq_ofLe32 (a b c d : Byte) :
    a.setWidth 32 ||| (b.setWidth 32 <<< 8) ||| (c.setWidth 32 <<< 16) ||| (d.setWidth 32 <<< 24) = ofLe32 a b c d := by
  apply BitVec.eq_of_getLsbD_eq
  intro i hi
  simp only [ofLe32, BitVec.getLsbD_append, BitVec.getLsbD_or, BitVec.getLsbD_shiftLeft, BitVec.getLsbD_setWidth]
  split_ifs <;> grind

/-- PACK_HEADER's value is the header read as a little-endian number (R142). -/
theorem headerValue_eq_ofLe32 (seq : BitVec 3) (n : BitVec 12) :
    headerValue seq n = ofLe32 (headerByte0 seq) (headerByte1 n) (headerByte2 n) (headerByte3 seq n) :=
  or_shiftLeft_eq_ofLe32 ..

/-- Settles O34: the value is the little-endian number of the header's four bytes. -/
theorem packHeaderReturnsTheHeader : Obligations.PackHeaderReturnsTheHeader := by
  intro s sq n
  refine ⟨fun hn => ?_, fun hn => exec_packHeader_of_gt hn sq s⟩
  have hvalue := ofLe32_toNat (headerByte0 sq) (headerByte1 (n.setWidth 12)) (headerByte2 (n.setWidth 12))
    (headerByte3 sq (n.setWidth 12))
  rw [← headerValue_eq_ofLe32] at hvalue
  rw [BitVec.ofNat_toNat]
  exact ⟨_, _, _, _, _, rfl, hvalue, exec_packHeader_of_le hn sq s⟩

/-! ## BUILD_PACKET -/

/-- BUILD_PACKET within the limit (R144). -/
theorem exec_buildPacket_of_le {payload : Bytes} (hpayload : payload.length ≤ 4095) (sq : BitVec 3) (s : State) :
    exec (.buildPacket sq payload) s = .next (completeBytes (packet s.cfg.slip sq payload) s) :=
  congrArg _ (if_neg (Nat.not_lt.mpr hpayload))

/-- BUILD_PACKET above the limit. -/
theorem exec_buildPacket_of_gt {payload : Bytes} (hpayload : 4095 < payload.length) (sq : BitVec 3) (s : State) :
    exec (.buildPacket sq payload) s = .next (raiseError .payloadTooLong s) :=
  congrArg _ (if_pos hpayload)

/-- A length that a `u32` holds is its own value (00_scope.md R12). -/
theorem lengthValue_of_lt {n : Nat} (hn : n < 4294967296) : lengthValue n = BitVec.ofNat 32 n := if_pos hn

/-- The header has four bytes (R140). -/
@[simp] theorem length_header (seq : BitVec 3) (n : BitVec 12) : (header seq n).length = 4 := rfl

/-- The trailer has two bytes (00_scope.md R13). -/
@[simp] theorem length_le16 (v : U16) : (le16 v).length = 2 := rfl

/-- The raw packet is six bytes longer than its payload (R143). -/
theorem length_rawPacket (seq : BitVec 3) (payload : Bytes) :
    (rawPacket seq payload).length = 4 + payload.length + 2 := by
  simp [rawPacket, Nat.add_assoc]

/-- A frame is at most two delimiters and an escape pair for each byte (41_framer.md R121). -/
theorem length_slipEncode_le (p : SlipParams) (data : Bytes) : (slipEncode p data).length ≤ 2 + 2 * data.length := by
  have hcount : data.countP (fun b => b == p.slipEnd || b == p.slipEsc) ≤ data.length := List.countP_le_length
  simp only [slipEncode, List.length_append, List.length_singleton, length_flatMap_stuff]
  omega

/-- The longest frame the block builds (R145). -/
theorem length_packet_le (p : SlipParams) (seq : BitVec 3) {payload : Bytes} (hpayload : payload.length ≤ 4095) :
    (packet p seq payload).length ≤ 8204 := by
  have hframe : (packet p seq payload).length ≤ _ := length_slipEncode_le p (rawPacket seq payload)
  rw [length_rawPacket] at hframe
  omega

/-- Settles O35: a frame of at most 8204 bytes has its own length as the value. -/
theorem buildPacketReturnsTheFrame : Obligations.BuildPacketReturnsTheFrame := by
  intro s sq payload
  refine ⟨fun hpayload => ?_, fun hpayload => exec_buildPacket_of_gt hpayload sq s⟩
  have hlength := length_packet_le s.cfg.slip sq hpayload
  refine ⟨packet s.cfg.slip sq payload, _, rfl, rfl, hlength, ?_⟩
  rw [← lengthValue_of_lt (by omega)]
  exact exec_buildPacket_of_le hpayload sq s

/-! ## A built frame, decoded -/

/-- Under R10 a built frame decodes to the raw packet (R147). -/
theorem slipDecode_packet {p : SlipParams} (hlegal : slipLegal p = true) (policy : EscPolicy) (seq : BitVec 3)
    (payload : Bytes) : slipDecode p policy (packet p seq payload) = some (rawPacket seq payload) :=
  slipDecode_slipEncode hlegal policy (rawPacket seq payload)

/-- The raw packet's first four bytes are the header. -/
theorem take_rawPacket_header (seq : BitVec 3) (payload : Bytes) :
    (rawPacket seq payload).take 4 = header seq (BitVec.ofNat 12 payload.length) := rfl

/-- Behind the header stands the payload, unchanged (R141). -/
theorem take_drop_rawPacket_payload (seq : BitVec 3) (payload : Bytes) :
    ((rawPacket seq payload).drop 4).take payload.length = payload :=
  List.take_left

/-- The bytes before the trailer are the header and the payload. -/
theorem take_rawPacket_body (seq : BitVec 3) (payload : Bytes) :
    (rawPacket seq payload).take (4 + payload.length) = header seq (BitVec.ofNat 12 payload.length) ++ payload :=
  List.take_left' (by simp)

/-- The last two bytes are the little-endian checksum of all that stands before them (R143). -/
theorem drop_rawPacket_trailer (seq : BitVec 3) (payload : Bytes) :
    (rawPacket seq payload).drop (4 + payload.length) =
      le16 (checksum ((rawPacket seq payload).take (4 + payload.length))) := by
  rw [take_rawPacket_body]
  exact List.drop_left' (by simp)

/-- Settles O36: the decoder gives the raw packet back, and each of its parts stands at its own place. -/
theorem builtFrameDecodesToTheRawPacket : Obligations.BuiltFrameDecodesToTheRawPacket := by
  intro p policy seq payload hlegal _
  exact ⟨rfl, List.getLast?_concat, rawPacket seq payload, slipDecode_packet hlegal policy seq payload,
    length_rawPacket seq payload, take_rawPacket_header seq payload, take_drop_rawPacket_payload seq payload,
    drop_rawPacket_trailer seq payload⟩

/-! ## PARSE_ACK -/

/-- A body of fewer than four bytes has no `ACK` field (30_encoding.md R73). -/
theorem parseAck_of_short {body : Bytes} (h : body.length < 4) : parseAck body = none := by
  unfold parseAck
  split
  case h_1 =>
    simp only [List.length_cons] at h
    omega
  case h_2 => rfl

/-- A body of at least four bytes: bits 5..3 of its first byte (30_encoding.md R73). -/
theorem parseAck_of_four_le {body : Bytes} (h : 4 ≤ body.length) :
    parseAck body = some ((body.headD 0#8).extractLsb' 3 3) := by
  match body, h with
  | _ :: _ :: _ :: _ :: _, _ => rfl

/-- Bits 5..3 of a byte as a `u32`, on numbers. -/
theorem setWidth_extractLsb'_ack (b : Byte) : (b.extractLsb' 3 3).setWidth 32 = BitVec.ofNat 32 (b.toNat / 8 % 8) := by
  rw [← BitVec.ofNat_toNat, BitVec.extractLsb'_toNat, Nat.shiftRight_eq_div_pow]

/-- PARSE_ACK's completion. -/
theorem exec_parseAck (body : Bytes) (s : State) :
    exec (.parseAck body) s = .next (ackCompletion (parseAck body) s) := rfl

/-- PARSE_ACK of a body that is too short (R146). -/
theorem exec_parseAck_of_short {body : Bytes} (h : body.length < 4) (s : State) :
    exec (.parseAck body) s = .next (raiseError .malformedAck s) := by
  rw [exec_parseAck, parseAck_of_short h]
  rfl

/-- PARSE_ACK of a body that is long enough, its value on numbers (R146). -/
theorem exec_parseAck_of_four_le {body : Bytes} (h : 4 ≤ body.length) (s : State) :
    exec (.parseAck body) s =
      .next (complete .ok (BitVec.ofNat 32 ((body.headD 0#8).toNat / 8 % 8)) [] s) := by
  rw [exec_parseAck, parseAck_of_four_le h, ← setWidth_extractLsb'_ack]
  rfl

/-- Settles O37, by the length of the body. -/
theorem parseAckReadsTheAckField : Obligations.ParseAckReadsTheAckField :=
  fun s _ => ⟨fun hshort => exec_parseAck_of_short hshort s, fun hlong => exec_parseAck_of_four_le hlong s⟩

/-! ## The block's own packet, parsed -/

/-- PARSE_ACK of a packet's body: its first byte is the header's, whose `ACK` field is the sequence number plus one
(R148). -/
theorem exec_parseAck_rawPacket (seq : BitVec 3) (payload : Bytes) (s : State) :
    exec (.parseAck (rawPacket seq payload)) s =
      .next (complete .ok (BitVec.ofNat 32 ((seq.toNat + 1) % 8)) [] s) := by
  obtain ⟨-, hack, -, -⟩ := headerByte0_fields seq
  have hlong : 4 ≤ (rawPacket seq payload).length := by
    rw [length_rawPacket]
    omega
  rw [exec_parseAck_of_four_le hlong, ← hack]
  rfl

/-- Settles O38: BUILD_PACKET keeps the parameters, so that SLIP_DECODE gives the raw packet back. -/
theorem ownPacketParsesToItsAck : Obligations.OwnPacketParsesToItsAck := by
  intro s sq payload hlegal hpayload
  have hdecode : exec (.slipDecode (packet s.cfg.slip sq payload)) (completeBytes (packet s.cfg.slip sq payload) s) =
      .next (completeBytes (rawPacket sq payload) (completeBytes (packet s.cfg.slip sq payload) s)) :=
    exec_slipDecode_of_some (slipDecode_packet hlegal s.cfg.escPolicy sq payload)
  exact ⟨_, _, _, _, _, _, _, exec_buildPacket_of_le hpayload sq s, completeBytes_reply .., hdecode,
    completeBytes_reply .., exec_parseAck_rawPacket sq payload _, complete_reply ..⟩

end Sys2Proof.Proofs
end

section
/-! A failed session (spec/43_transport.md R177, spec/60_exceptions.md R247): what each step leaves alone while `WFAIL`
is 1, and so what every run does that starts no new session. -/

namespace Sys2Proof.Proofs

open Sys2Proof.Machine Sys2Proof.Laws

/-- From `s` to `t` the session stays failed, sends nothing and counts no packet. -/
structure StaysSilent (s t : State) : Prop where
  wfail : t.wfail = true
  txlog : t.txlog = s.txlog
  seq : t.seq = s.seq

/-- A failed session refuses a packet before anything else is looked at (R170). -/
theorem sendPacket_of_wfail {s : State} (hfailed : s.wfail = true) (payload : Bytes) :
    sendPacket payload s = raiseError .sessionFailed s :=
  if_pos hfailed

/-- A failed session refuses a write before a draw is taken (R161). -/
theorem exec_txWrite_of_wfail {s : State} (hfailed : s.wfail = true) (data : Bytes) :
    exec (.txWrite data) s = .next (raiseError .sessionFailed s) :=
  congrArg _ (if_pos hfailed)

/-- No instruction but SESSION_RESET ends a failed session or reaches the wire in it. -/
theorem exec_staysSilent {i : Instr} {s t : State} (hfailed : s.wfail = true) (hi : i ≠ .sessionReset)
    (hexec : exec i s = .next t) : StaysSilent s t := by
  rcases exec_next_cases hexec with
    ⟨payload, -, rfl⟩ | ⟨data, rfl⟩ | ⟨u, rfl⟩ | ⟨hreset, -⟩ | ⟨-, rfl⟩ | ⟨hpure, -⟩
  · rw [sendPacket_of_wfail hfailed]
    exact ⟨hfailed, rfl, rfl⟩
  · rw [exec_txWrite_of_wfail hfailed] at hexec
    cases hexec
    exact ⟨hfailed, rfl, rfl⟩
  · obtain ⟨-, hseq, hwfail, htxlog⟩ := rxReadFrame_registers hexec
    exact ⟨hwfail.trans hfailed, htxlog, hseq⟩
  · exact absurd hreset hi
  · exact ⟨hfailed, rfl, rfl⟩
  · obtain ⟨hseq, hwfail, htxlog⟩ := pureCompletion_registers hpure
    exact ⟨hwfail.trans hfailed, htxlog, hseq⟩

/-- The packet-send primitive does not touch what the host does next. -/
theorem sendPacket_pending (payload : Bytes) (s : State) : (sendPacket payload s).pending = s.pending := by
  rcases sendPacket_cases payload s with ⟨-, h⟩ | ⟨-, -, h⟩ | ⟨-, -, ⟨q, l, -, h⟩ | ⟨k, l, -, h⟩⟩
  all_goals simp [h]

/-- No instruction touches what the host does next. -/
theorem exec_pending {i : Instr} {s t : State} (hexec : exec i s = .next t) : t.pending = s.pending := by
  rcases exec_next_cases hexec with
    ⟨payload, -, rfl⟩ | ⟨data, rfl⟩ | ⟨u, rfl⟩ | ⟨-, rfl⟩ | ⟨-, rfl⟩ | ⟨⟨code, value, out, r, -, -, -, rfl⟩, -⟩
  · exact sendPacket_pending payload s
  · rcases txWrite_cases data s with ⟨-, h⟩ | ⟨-, ⟨l, h⟩ | ⟨k, l, -, h⟩⟩
    all_goals
      rw [h] at hexec
      cases hexec
      rfl
  · obtain ⟨l, ⟨-, f, -, h⟩ | ⟨code, -, h⟩⟩ := rxReadFrame_cases u s
    all_goals
      rw [h] at hexec
      cases hexec
      rfl
  all_goals rfl

/-- A step takes the oldest item, if there is one. -/
theorem step_pending {s t : State} (hstep : step s = .next t) : t.pending = s.pending.tail := by
  rcases step_next_cases hstep with ⟨hidle, rfl⟩ | ⟨h, rest, hpending, htaken⟩
  · rw [hidle]
    rfl
  rw [hpending, List.tail_cons]
  rcases htaken with ⟨ms, -, rfl⟩ | ⟨-, rfl⟩ | ⟨i, -, hexec⟩ | ⟨why, -, rfl⟩
  · rfl
  · rfl
  · exact exec_pending hexec
  · rfl

/-- An item that starts no session does not decode to SESSION_RESET. -/
theorem ne_sessionReset_of_decode {limit : Nat} {h : HostItem} {i : Instr} (hdecode : decode limit h = .ok i)
    (hsession : startsSession h = false) : i ≠ .sessionReset := by
  rintro rfl
  rw [← encode_of_decode hdecode, encode_sessionReset] at hsession
  cases hsession

/-- A step that takes nothing, or an item that starts no session, leaves a failed session silent. -/
theorem step_staysSilent {s t : State} (hfailed : s.wfail = true)
    (hsession : ∀ h rest, s.pending = h :: rest → startsSession h = false) (hstep : step s = .next t) :
    StaysSilent s t := by
  rcases step_next_cases hstep with ⟨-, rfl⟩ | ⟨h, rest, hpending, htaken⟩
  · exact ⟨hfailed, rfl, rfl⟩
  have hsession := hsession h rest hpending
  rcases htaken with ⟨ms, -, rfl⟩ | ⟨rfl, -⟩ | ⟨i, hdecode, hexec⟩ | ⟨why, -, rfl⟩
  · exact ⟨hfailed, rfl, rfl⟩
  · cases hsession
  · obtain ⟨hwfail, htxlog, hseq⟩ :=
      exec_staysSilent (s := { s with pending := rest }) hfailed (ne_sessionReset_of_decode hdecode hsession) hexec
    exact ⟨hwfail, htxlog, hseq⟩
  · exact ⟨hfailed, rfl, rfl⟩

/-- Settles O15, by induction on the number of steps: each takes the first of the items, and the rest are those of the
run that is left. -/
theorem failedSessionStaysSilent : Obligations.FailedSessionStaysSilent := by
  intro k
  induction k with
  | zero =>
    intro s t hfailed _ hrun
    cases hrun
    exact ⟨hfailed, rfl, rfl⟩
  | succ k ih =>
    intro s t hfailed hitems hrun
    obtain ⟨u, hstep, hrest⟩ := run_succ_next hrun
    have hhead : ∀ h rest, s.pending = h :: rest → startsSession h = false := by
      intro h rest hpending
      refine hitems h ?_
      rw [hpending, List.take_succ_cons]
      exact List.mem_cons_self
    have htail : ∀ h ∈ u.pending.take k, startsSession h = false := by
      intro h hh
      rw [step_pending hstep, ← List.drop_one, List.take_drop, Nat.add_comm] at hh
      exact hitems h (List.mem_of_mem_drop hh)
    obtain ⟨hwfail, htxlog, hseq⟩ := step_staysSilent hfailed hhead hstep
    obtain ⟨hwfail', htxlog', hseq'⟩ := ih u t hwfail htail hrest
    exact ⟨hwfail', htxlog'.trans htxlog, hseq'.trans hseq⟩

end Sys2Proof.Proofs
end

section
/-! The draws, the send and the fetch, branch by branch (spec/00_scope.md R15, spec/43_transport.md R170,
spec/10_state.md R21). -/

namespace Sys2Proof.Proofs

open Sys2Proof.Machine Sys2Proof.Laws

/-- With no write fixed, the draw is a free one. -/
theorem drawWrite_free {s : State} (hwrites : s.link.writes = []) :
    drawWrite s =
      (Config.writeDraw s.link.drawn, { s with link := { s.link with drawn := s.link.drawn + 1 } }) := by
  simp only [drawWrite, hwrites]

/-- With no read fixed, the draw is a free one. -/
theorem drawRead_free {s : State} (hreads : s.link.reads = []) :
    drawRead s = (Config.readDraw s.link.drawn, { s with link := { s.link with drawn := s.link.drawn + 1 } }) := by
  simp only [drawRead, hreads]

/-- A send whose whole frame is written drains the answer and completes (R170). -/
theorem sendFrame_of_ok {s t : State} {payload : Bytes}
    (hwrite : uartWrite (packet s.cfg.slip s.seq payload) s = (.ok, t)) :
    sendFrame payload s = complete .ok 0#32 [] (sendDrain t) := by
  rw [sendFrame, hwrite]

/-- A send whose write fails records the failure and reads nothing (R170, R177). -/
theorem sendFrame_of_ioError {s t : State} {payload : Bytes} {k : Nat}
    (hwrite : uartWrite (packet s.cfg.slip s.seq payload) s = (.ioError k, t)) :
    sendFrame payload s = raiseError .writeFailure { t with wfail := true } := by
  rw [sendFrame, hwrite]

/-- An item that decodes runs. -/
theorem takeItem_of_ok {s : State} {h : HostItem} {i : Instr} (hdecode : decode (maxData s.cfg) h = .ok i) :
    takeItem h s = .run i s := by
  cases h with
  | wait ms => cases hdecode
  | hardwareReset => cases hdecode
  | command w data => rw [takeItem, hdecode]
  | payload bytes => rw [takeItem, hdecode]

/-- An item that does not decode is dealt with by the reason, hardware reset apart. -/
theorem takeItem_of_error {s : State} {h : HostItem} {why : Rejection} (hitem : h ≠ .hardwareReset)
    (hdecode : decode (maxData s.cfg) h = .error why) : takeItem h s = rejectItem why s := by
  cases h with
  | wait ms =>
    cases hdecode
    rfl
  | hardwareReset => exact absurd rfl hitem
  | command w data => rw [takeItem, hdecode]
  | payload bytes => rw [takeItem, hdecode]

/-- With nothing pending the block is idle. -/
theorem fetch_of_nil {s : State} (hlegal : slipLegal s.cfg.slip = true) (hpending : s.pending = []) :
    fetch s = .settled s := by
  simp [fetch, hlegal, hpending]

/-- The oldest item is taken off what is pending. -/
theorem fetch_of_cons {s : State} {h : HostItem} {rest : List HostItem} (hlegal : slipLegal s.cfg.slip = true)
    (hpending : s.pending = h :: rest) : fetch s = takeItem h { s with pending := rest } := by
  simp [fetch, hlegal, hpending]

/-- A parameter set that breaks R10 is refused. -/
theorem fetch_of_illegal {s : State} (hbad : slipLegal s.cfg.slip = false) :
    fetch s = .refused .illegalConfiguration :=
  if_pos hbad

end Sys2Proof.Proofs
end

section
/-! The two parameters that nothing reads (spec/43_transport.md R182, spec/20_memory.md R48): each operation of the
block commutes with a change of them. -/

namespace Sys2Proof.Proofs

open Sys2Proof.Machine Sys2Proof.Laws

section

variable (u : UartConfig) (b : HostBinding) (s : State)

/-! ## Completions -/

theorem decodeCompletion_onOtherLine (result : Option Bytes) :
    decodeCompletion result (onOtherLine u b s) = onOtherLine u b (decodeCompletion result s) := by
  cases result <;> rfl

theorem ackCompletion_onOtherLine (ack : Option (BitVec 3)) :
    ackCompletion ack (onOtherLine u b s) = onOtherLine u b (ackCompletion ack s) := by
  cases ack <;> rfl

theorem readCompletion_onOtherLine (r : ReadResult) :
    readCompletion r (onOtherLine u b s) = onOtherLine u b (readCompletion r s) := by
  cases r <;> rfl

/-! ## The serial link: the same draw, and the same change of the state -/

theorem drawWrite_onOtherLine : drawWrite (onOtherLine u b s) = (drawWrite s).map id (onOtherLine u b) := by
  cases hwrites : s.link.writes with
  | nil =>
    rw [drawWrite_free hwrites, drawWrite_free (s := onOtherLine u b s) hwrites]
    rfl
  | cons d ds =>
    rw [drawWrite_fixed s d ds hwrites, drawWrite_fixed (onOtherLine u b s) d ds hwrites]
    rfl

theorem drawRead_onOtherLine : drawRead (onOtherLine u b s) = (drawRead s).map id (onOtherLine u b) := by
  cases hreads : s.link.reads with
  | nil =>
    rw [drawRead_free hreads, drawRead_free (s := onOtherLine u b s) hreads]
    rfl
  | cons d ds =>
    rw [drawRead_fixed s d ds hreads, drawRead_fixed (onOtherLine u b s) d ds hreads]
    rfl

theorem uartWrite_onOtherLine (bs : Bytes) :
    uartWrite bs (onOtherLine u b s) = (uartWrite bs s).map id (onOtherLine u b) := by
  rw [uartWrite, drawWrite_onOtherLine]
  rfl

theorem uartReadFrame_onOtherLine (t : U32) :
    uartReadFrame t (onOtherLine u b s) = (uartReadFrame t s).map id (onOtherLine u b) := by
  have hdraw : drawRead { onOtherLine u b s with rx := Rx.idle } = _ :=
    drawRead_onOtherLine u b { s with rx := Rx.idle }
  rw [uartReadFrame, hdraw]
  rfl

/-! ## Writes, reads and sends -/

theorem txWriteOpen_onOtherLine (data : Bytes) :
    txWriteOpen data (onOtherLine u b s) = onOtherLine u b (txWriteOpen data s) := by
  rw [txWriteOpen, txWriteOpen, uartWrite_onOtherLine]
  rcases uartWrite data s with ⟨_ | k, t⟩ <;> rfl

theorem sendDrain_onOtherLine : sendDrain (onOtherLine u b s) = onOtherLine u b (sendDrain s) := by
  rw [sendDrain, sendDrain, uartReadFrame_onOtherLine]
  rcases uartReadFrame ackTimeoutMs s with ⟨_ | _ | _, t⟩ <;> rfl

/-- The packet is built from the SLIP bytes, which are as they were, so the same bytes are written. -/
theorem sendFrame_onOtherLine (payload : Bytes) :
    sendFrame payload (onOtherLine u b s) = onOtherLine u b (sendFrame payload s) := by
  have hother := uartWrite_onOtherLine u b s (packet s.cfg.slip s.seq payload)
  cases hwrite : uartWrite (packet s.cfg.slip s.seq payload) s with
  | mk d t =>
    rw [hwrite] at hother
    cases d with
    | ok =>
      rw [sendFrame_of_ok hwrite, sendFrame_of_ok hother, sendDrain_onOtherLine]
      rfl
    | ioError k =>
      rw [sendFrame_of_ioError hwrite, sendFrame_of_ioError hother]
      rfl

theorem sendPacket_onOtherLine (payload : Bytes) :
    sendPacket payload (onOtherLine u b s) = onOtherLine u b (sendPacket payload s) := by
  rw [sendPacket, sendPacket, apply_ite (onOtherLine u b), apply_ite (onOtherLine u b), ← sendFrame_onOtherLine]
  rfl

/-! ## Instructions and steps -/

/-- No instruction reads the two parameters. -/
theorem exec_onOtherLine (i : Instr) : exec i (onOtherLine u b s) = mapNext (onOtherLine u b) (exec i s) := by
  cases i
  case crcInit | crcUpdate | checksum | slipEncode | statusRead | sessionReset => rfl
  case slipDecode data => exact congrArg _ (decodeCompletion_onOtherLine u b s _)
  case packHeader sq n =>
    simp only [exec, execPackHeader, mapNext, apply_ite (onOtherLine u b)]
    rfl
  case buildPacket sq payload =>
    simp only [exec, execBuildPacket, mapNext, apply_ite (onOtherLine u b)]
    rfl
  case parseAck body => exact congrArg _ (ackCompletion_onOtherLine u b s _)
  case txWrite data =>
    simp only [exec, execTxWrite, txWriteOpen_onOtherLine, mapNext, apply_ite (onOtherLine u b)]
    rfl
  case rxReadFrame t =>
    simp only [exec, execRxReadFrame, uartReadFrame_onOtherLine]
    exact congrArg _ (readCompletion_onOtherLine u b ..)
  case sendPacket | dfuInit | dfuStart | dfuData | dfuStop => exact congrArg _ (sendPacket_onOtherLine u b s _)

/-- What the fetch finds, with its state changed by `f`. -/
def mapFetched (f : State → State) : Fetched → Fetched
  | .refused r => .refused r
  | .settled s => .settled (f s)
  | .run i s => .run i (f s)

theorem rejectItem_onOtherLine (why : Rejection) :
    rejectItem why (onOtherLine u b s) = mapFetched (onOtherLine u b) (rejectItem why s) := by
  cases why <;> rfl

/-- An item is decoded by `MAX_DATA`, which is as it was. -/
theorem takeItem_onOtherLine (h : HostItem) :
    takeItem h (onOtherLine u b s) = mapFetched (onOtherLine u b) (takeItem h s) := by
  by_cases hitem : h = .hardwareReset
  · subst hitem
    rfl
  have hother : decode (maxData (onOtherLine u b s).cfg) h = decode (maxData s.cfg) h := rfl
  cases hdecode : decode (maxData s.cfg) h with
  | ok i =>
    rw [takeItem_of_ok hdecode, takeItem_of_ok (hother.trans hdecode)]
    rfl
  | error why =>
    rw [takeItem_of_error hitem hdecode, takeItem_of_error hitem (hother.trans hdecode), rejectItem_onOtherLine]

/-- The fetch reads of the parameters the SLIP bytes and `MAX_DATA` only. -/
theorem fetch_onOtherLine : fetch (onOtherLine u b s) = mapFetched (onOtherLine u b) (fetch s) := by
  cases hlegal : slipLegal s.cfg.slip with
  | false =>
    rw [fetch_of_illegal hlegal, fetch_of_illegal (s := onOtherLine u b s) hlegal]
    rfl
  | true =>
    cases hpending : s.pending with
    | nil =>
      rw [fetch_of_nil hlegal hpending, fetch_of_nil (s := onOtherLine u b s) hlegal hpending]
      rfl
    | cons h rest =>
      rw [fetch_of_cons hlegal hpending, fetch_of_cons (s := onOtherLine u b s) hlegal hpending]
      exact takeItem_onOtherLine u b { s with pending := rest } h

end

/-- Settles O20: the fetch finds the same, and what runs does the same. -/
theorem unreadParametersDoNotMatter : Obligations.UnreadParametersDoNotMatter := by
  intro s u b
  rw [step, step, fetch_onOtherLine]
  cases fetch s with
  | refused r => rfl
  | settled t => rfl
  | run i t => exact exec_onOtherLine u b t i

end Sys2Proof.Proofs
end

section
/-! The frame receiver (spec/43_transport.md R164): what it does with each run of bytes in each of its modes, and so the
byte sequences from which it completes a frame. -/

namespace Sys2Proof.Proofs

open Sys2Proof.Machine Sys2Proof.Laws

/-! ## One byte -/

/-- Hunting, the receiver waits for a delimiter. -/
theorem receive_hunting_cons {d b : Byte} (hb : b ≠ d) (bytes : Bytes) :
    receive d Rx.idle (b :: bytes) = receive d Rx.idle bytes := by
  simp [receive, rxByte, Rx.idle, hb]

/-- The opening delimiter. -/
theorem receive_hunting_delimiter (d : Byte) (bytes : Bytes) :
    receive d Rx.idle (d :: bytes) = receive d ⟨.inFrame, []⟩ bytes := by
  simp [receive, rxByte, Rx.idle]

/-- A byte of the body. -/
theorem receive_inFrame_cons {d b : Byte} (hb : b ≠ d) (buf bytes : Bytes) :
    receive d ⟨.inFrame, buf⟩ (b :: bytes) = receive d ⟨.inFrame, buf ++ [b]⟩ bytes := by
  simp [receive, rxByte, hb]

/-- A delimiter right after the opening one opens anew. -/
theorem receive_opened_delimiter (d : Byte) (bytes : Bytes) :
    receive d ⟨.inFrame, []⟩ (d :: bytes) = receive d ⟨.inFrame, []⟩ bytes := by
  simp [receive, rxByte]

/-- The closing delimiter completes the frame, and what comes after it is discarded. -/
theorem receive_inFrame_delimiter {buf : Bytes} (hbuf : buf ≠ []) (d : Byte) (bytes : Bytes) :
    receive d ⟨.inFrame, buf⟩ (d :: bytes) = some ([d] ++ buf ++ [d]) := by
  simp [receive, rxByte, hbuf]

/-! ## Runs of bytes -/

/-- Bytes without a delimiter are discarded while the receiver hunts. -/
theorem receive_hunting_append {d : Byte} {before : Bytes} (hbefore : d ∉ before) (bytes : Bytes) :
    receive d Rx.idle (before ++ bytes) = receive d Rx.idle bytes := by
  induction before with
  | nil => rfl
  | cons b before ih =>
    obtain ⟨hb, hbefore⟩ := not_or.mp (List.mem_cons.not.mp hbefore)
    rw [List.cons_append, receive_hunting_cons (Ne.symm hb), ih hbefore]

/-- Bytes without a delimiter are collected within a frame. -/
theorem receive_inFrame_append {d : Byte} {body : Bytes} (hbody : d ∉ body) (buf bytes : Bytes) :
    receive d ⟨.inFrame, buf⟩ (body ++ bytes) = receive d ⟨.inFrame, buf ++ body⟩ bytes := by
  induction body generalizing buf with
  | nil => rw [List.nil_append, List.append_nil]
  | cons b body ih =>
    obtain ⟨hb, hbody⟩ := not_or.mp (List.mem_cons.not.mp hbody)
    rw [List.cons_append, receive_inFrame_cons (Ne.symm hb), ih hbody, List.append_assoc, List.singleton_append]

/-- Any number of delimiters after the opening one do no more than it did. -/
theorem receive_opened_replicate (d : Byte) (n : Nat) (bytes : Bytes) :
    receive d ⟨.inFrame, []⟩ (List.replicate n d ++ bytes) = receive d ⟨.inFrame, []⟩ bytes := by
  induction n with
  | zero => rfl
  | succ n ih => rw [List.replicate_succ, List.cons_append, receive_opened_delimiter, ih]

/-! ## Completed frames -/

/-- While the receiver hunts, bytes without a delimiter complete no frame. -/
theorem receive_hunting_eq_none {d : Byte} {bytes : Bytes} (hbytes : d ∉ bytes) : receive d Rx.idle bytes = none := by
  rw [← List.append_nil bytes, receive_hunting_append hbytes]
  rfl

/-- Within a frame, bytes without a delimiter complete none. -/
theorem receive_inFrame_eq_none {d : Byte} {bytes : Bytes} (hbytes : d ∉ bytes) (buf : Bytes) :
    receive d ⟨.inFrame, buf⟩ bytes = none := by
  rw [← List.append_nil bytes, receive_inFrame_append hbytes]
  rfl

/-- A frame that has begun is completed by the next delimiter. -/
theorem shape_of_receive_begun {d : Byte} {buf bytes f : Bytes} (hbuf : buf ≠ [])
    (hframe : receive d ⟨.inFrame, buf⟩ bytes = some f) :
    ∃ body after, d ∉ body ∧ bytes = body ++ d :: after ∧ f = [d] ++ (buf ++ body) ++ [d] := by
  by_cases hmem : d ∈ bytes
  · obtain ⟨body, after, rfl, hbody⟩ := List.eq_append_cons_of_mem hmem
    rw [receive_inFrame_append hbody, receive_inFrame_delimiter (by simp [hbuf])] at hframe
    cases hframe
    exact ⟨body, after, hbody, rfl, rfl⟩
  · rw [receive_inFrame_eq_none hmem] at hframe
    cases hframe

/-- After the opening delimiter: further ones, then a frame that begins with its first other byte. -/
theorem shape_of_receive_opened {d : Byte} {bytes f : Bytes} (hframe : receive d ⟨.inFrame, []⟩ bytes = some f) :
    ∃ n body after, d ∉ body ∧ body ≠ [] ∧ bytes = List.replicate n d ++ body ++ d :: after ∧
      f = [d] ++ body ++ [d] := by
  induction bytes with
  | nil => cases hframe
  | cons b bytes ih =>
    by_cases hb : b = d
    · subst hb
      rw [receive_opened_delimiter] at hframe
      obtain ⟨n, body, after, hbody, hne, rfl, rfl⟩ := ih hframe
      exact ⟨n + 1, body, after, hbody, hne, rfl, rfl⟩
    · rw [receive_inFrame_cons hb, List.nil_append] at hframe
      obtain ⟨body, after, hbody, rfl, rfl⟩ := shape_of_receive_begun (List.cons_ne_nil b []) hframe
      exact ⟨0, b :: body, after, by simp [Ne.symm hb, hbody], List.cons_ne_nil b body, rfl, rfl⟩

/-- Hunting: bytes without a delimiter, the opening one, and what completes a frame after it. -/
theorem shape_of_receive_idle {d : Byte} {bytes f : Bytes} (hframe : receive d Rx.idle bytes = some f) :
    ∃ (before body after : Bytes) (n : Nat), d ∉ before ∧ d ∉ body ∧ body ≠ [] ∧
      bytes = before ++ List.replicate (n + 1) d ++ body ++ [d] ++ after ∧ f = [d] ++ body ++ [d] := by
  by_cases hmem : d ∈ bytes
  · obtain ⟨before, rest, rfl, hbefore⟩ := List.eq_append_cons_of_mem hmem
    rw [receive_hunting_append hbefore, receive_hunting_delimiter] at hframe
    obtain ⟨n, body, after, hbody, hne, rfl, rfl⟩ := shape_of_receive_opened hframe
    exact ⟨before, body, after, n, hbefore, hbody, hne, by simp [List.replicate_succ], rfl⟩
  · rw [receive_hunting_eq_none hmem] at hframe
    cases hframe

/-- The receiver over a byte sequence of that shape. -/
theorem receive_of_shape {d : Byte} {before body : Bytes} (hbefore : d ∉ before) (hbody : d ∉ body) (hne : body ≠ [])
    (n : Nat) (after : Bytes) :
    receive d Rx.idle (before ++ List.replicate (n + 1) d ++ body ++ [d] ++ after) = some ([d] ++ body ++ [d]) := by
  simp only [List.append_assoc, List.replicate_succ, List.cons_append, List.nil_append]
  rw [receive_hunting_append hbefore, receive_hunting_delimiter, receive_opened_replicate,
    receive_inFrame_append hbody, List.nil_append, receive_inFrame_delimiter hne]
  rfl

/-- Settles O41: the receiver over a sequence of the shape, and the shape of what it completes a frame from. -/
theorem receiverReturnsTheFirstFrame : Obligations.ReceiverReturnsTheFirstFrame := by
  intro d bytes f
  refine ⟨shape_of_receive_idle, ?_⟩
  rintro ⟨before, body, after, n, hbefore, hbody, hne, rfl, rfl⟩
  exact receive_of_shape hbefore hbody hne n after

end Sys2Proof.Proofs
end

section
/-! RX_READ_FRAME (spec/43_transport.md R163, R165). -/

namespace Sys2Proof.Proofs

open Sys2Proof.Machine Sys2Proof.Laws

/-- RX_READ_FRAME with its draw fixed: the completion of what the receiver makes of it. -/
theorem exec_rxReadFrame_fixed {s : State} {r : ReadDraw} {rs : List ReadDraw} (hreads : s.link.reads = r :: rs)
    (t : U32) :
    exec (.rxReadFrame t) s = .next (readCompletion (readResult s.cfg.slip.slipEnd Rx.idle r)
      { s with rx := Rx.idle, link := { s.link with reads := rs } }) := by
  simp only [exec, execRxReadFrame, uartReadFrame_fixed t s r rs hreads]

/-- A read whose bytes complete a frame ends with it (R163). -/
theorem readResult_of_some {d : Byte} {rx : Rx} {r : ReadDraw} {f : Bytes} (hframe : receive d rx r.bytes = some f) :
    readResult d rx r = .frame f := by
  rw [readResult, hframe]

/-- A read whose bytes complete no frame ends as drawn (R163). -/
theorem readResult_of_none {d : Byte} {rx : Rx} {r : ReadDraw} (hframe : receive d rx r.bytes = none) :
    readResult d rx r = if r.ending = .timeout then .timeout else .ioError := by
  rw [readResult, hframe]
  cases r.ending <;> rfl

/-- Settles O42: the read comes to the frame of its bytes, or without one to the ending drawn. -/
theorem rxReadFrameFollowsTheDraw : Obligations.RxReadFrameFollowsTheDraw := by
  intro s t r rs hreads
  rw [exec_rxReadFrame_fixed hreads]
  refine ⟨fun f hframe => ?_, fun hframe hending => ?_, fun hframe hending => ?_⟩
  · rw [readResult_of_some hframe]
    rfl
  · rw [readResult_of_none hframe, hending]
    rfl
  · rw [readResult_of_none hframe, hending]
    rfl

/-- A read takes a fresh receiver, and no timeout value is read (43_transport.md R163, 92_eei_decisions.md D17). -/
theorem exec_rxReadFrame_withRx (s : State) (old : Rx) (t t' : U32) :
    exec (.rxReadFrame t') { s with rx := old } = exec (.rxReadFrame t) s := rfl

/-- Settles O43: a frame that RX_READ_FRAME returns is one that the receiver completed, and so has its shape. -/
theorem readFrameOutcomes : Obligations.ReadFrameOutcomes := by
  intro s t
  obtain ⟨l, ⟨bytes, f, hframe, h⟩ | ⟨code, rfl | rfl, h⟩⟩ := rxReadFrame_cases t s
  all_goals refine ⟨l, ?_, fun old t' => exec_rxReadFrame_withRx s old t t'⟩
  · obtain ⟨-, body, -, -, -, hbody, hne, -, rfl⟩ := shape_of_receive_idle hframe
    refine .inl ⟨body, hne, hbody, ?_⟩
    have hlength : ([s.cfg.slip.slipEnd] ++ body ++ [s.cfg.slip.slipEnd]).length = body.length + 2 := by
      simp only [List.length_append, List.length_singleton]
      omega
    rw [h, hlength]
  · exact .inr (.inl h)
  · exact .inr (.inr h)

end Sys2Proof.Proofs
end

section
/-! TX_WRITE (spec/43_transport.md R160, R161). -/

namespace Sys2Proof.Proofs

open Sys2Proof.Machine Sys2Proof.Laws

/-- While the session has not failed, TX_WRITE writes. -/
theorem exec_txWrite_of_open {s : State} (hopen : s.wfail = false) (data : Bytes) :
    exec (.txWrite data) s = .next (txWriteOpen data s) :=
  congrArg _ (if_neg (by simp [hopen]))

/-- Settles O39: the write draw decides which of the two completions is reached. -/
theorem txWriteFollowsTheDraw : Obligations.TxWriteFollowsTheDraw := by
  intro s data ws hopen
  rw [exec_txWrite_of_open hopen, txWriteOpen]
  refine ⟨fun hwrites => ?_, fun k _ hwrites => ?_⟩
  · rw [uartWrite_fixed data s _ ws hwrites]
    rfl
  · rw [uartWrite_fixed data s _ ws hwrites]
    rfl

/-- Settles O40: of the ways in which TX_WRITE can end, a session that has not failed leaves two. -/
theorem txWriteCompletes : Obligations.TxWriteCompletes := by
  intro s data hopen
  rcases txWrite_cases data s with ⟨hfailed, -⟩ | ⟨-, ⟨l, h⟩ | ⟨k, l, hk, h⟩⟩
  · rw [hopen] at hfailed
    cases hfailed
  · exact ⟨l, .inl h⟩
  · exact ⟨l, .inr ⟨k, hk, h⟩⟩

end Sys2Proof.Proofs
end

section
/-! SEND_PACKET (spec/43_transport.md R170 to R173) with its draws fixed, and the counter law over a run of sends
(R176). -/

namespace Sys2Proof.Proofs

open Sys2Proof.Machine Sys2Proof.Laws

/-- A payload within the limit, in a session that has not failed, is sent under the next number (R170, R171). -/
theorem sendPacket_of_open {s : State} {payload : Bytes} (hopen : s.wfail = false) (hpayload : payload.length ≤ 4095) :
    sendPacket payload s = sendFrame payload { s with seq := s.seq + 1#3 } := by
  rw [sendPacket, if_neg (by simp [hopen]), if_neg (show ¬ maxPayload < _ from Nat.not_lt.mpr hpayload)]

/-- The drain with its draw fixed: any frame keeps `SEQ`, and a read without one sets it to 0 (R172, R173). -/
theorem sendDrain_fixed {s : State} {r : ReadDraw} {rs : List ReadDraw} (hreads : s.link.reads = r :: rs) :
    sendDrain s = { s with
      seq := if (receive s.cfg.slip.slipEnd Rx.idle r.bytes).isSome then s.seq else 0#3,
      rx := Rx.idle, link := { s.link with reads := rs } } := by
  rw [sendDrain, uartReadFrame_fixed ackTimeoutMs s r rs hreads, readResult]
  cases receive s.cfg.slip.slipEnd Rx.idle r.bytes with
  | some f => rfl
  | none => cases r.ending <;> rfl

/-- A send that is written and then reads as drawn. -/
theorem sendPacket_of_ok {s : State} {payload : Bytes} {ws : List WriteDraw} {r : ReadDraw} {rs : List ReadDraw}
    (hopen : s.wfail = false) (hpayload : payload.length ≤ 4095) (hwrites : s.link.writes = .ok :: ws)
    (hreads : s.link.reads = r :: rs) :
    sendPacket payload s = { s with
      seq := if (receive s.cfg.slip.slipEnd Rx.idle r.bytes).isSome then s.seq + 1#3 else 0#3,
      txlog := s.txlog ++ packet s.cfg.slip (s.seq + 1#3) payload,
      rx := Rx.idle, link := { s.link with writes := ws, reads := rs }, result := .ok,
      reply := some { code := .ok, value := 0#32, out := [] } } := by
  rw [sendPacket_of_open hopen hpayload,
    sendFrame_of_ok (uartWrite_fixed _ { s with seq := s.seq + 1#3 } .ok ws hwrites)]
  exact congrArg (complete .ok 0#32 []) (sendDrain_fixed (by exact hreads))

/-- A send whose write fails after `k` bytes of the frame. -/
theorem sendPacket_of_ioError {s : State} {payload : Bytes} {ws : List WriteDraw} {k : Nat}
    (hopen : s.wfail = false) (hpayload : payload.length ≤ 4095) (hwrites : s.link.writes = .ioError k :: ws) :
    sendPacket payload s = { s with
      seq := s.seq + 1#3, wfail := true,
      txlog := s.txlog ++ (packet s.cfg.slip (s.seq + 1#3) payload).take k,
      link := { s.link with writes := ws }, result := .writeFailure,
      reply := some { code := .writeFailure, value := 0#32, out := [] } } := by
  rw [sendPacket_of_open hopen hpayload,
    sendFrame_of_ioError (uartWrite_fixed _ { s with seq := s.seq + 1#3 } (.ioError k) ws hwrites)]
  rfl

/-- Settles O44: whichever instruction sends the payload, it is the packet-send primitive with its draws fixed. -/
theorem sendPacketFollowsItsSteps : Obligations.SendPacketFollowsItsSteps := by
  intro s i payload ws hsends hopen hpayload
  rw [exec_of_sendsPayload i payload hsends]
  refine ⟨fun r rs hwrites hreads => ?_, fun k _ hwrites => ?_⟩
  · rw [sendPacket_of_ok hopen hpayload hwrites hreads]
  · rw [sendPacket_of_ioError hopen hpayload hwrites]

/-! ## The counter law -/

/-- The longest payload keeps to any `MAX_DATA` (00_scope.md R9). -/
theorem le_maxData_of_payload {n : Nat} (hn : n ≤ 4095) (p : Params) : n ≤ maxData p := by
  simp only [maxData, minMaxData]
  omega

/-- The step that takes the word of SEND_PACKET with a payload within the limit. -/
theorem step_sendPacket {s : State} {payload : Bytes} {rest : List HostItem} (hlegal : ParametersLegal s)
    (hpayload : payload.length ≤ 4095) (hpending : s.pending = .command 0x0040#16 payload :: rest) :
    step s = .next (sendPacket payload { s with pending := rest }) := by
  have hdecode : decode (maxData s.cfg) (.command 0x0040#16 payload) = .ok (.sendPacket payload) := by
    rw [decode_sendPacket_word, (overLimit_eq_false_iff ..).mpr (le_maxData_of_payload hpayload _)]
    rfl
  exact stepRunsDecodedInstruction s _ rest _ hlegal hpending hdecode

/-- The state after a send that is written whole and answered by a frame, with `rest` still to issue and the draws `ws`
and `rs` still fixed. -/
def answeredSend (s : State) (payload : Bytes) (rest : List HostItem) (ws : List WriteDraw) (rs : List ReadDraw) :
    State :=
  { s with
    seq := s.seq + 1#3, txlog := s.txlog ++ packet s.cfg.slip (s.seq + 1#3) payload, rx := Rx.idle, pending := rest,
    link := { s.link with writes := ws, reads := rs }, result := .ok,
    reply := some { code := .ok, value := 0#32, out := [] } }

/-- The step of such a send. -/
theorem step_sendPacket_of_frame {s : State} {payload : Bytes} {rest : List HostItem} {ws : List WriteDraw}
    {r : ReadDraw} {rs : List ReadDraw} (hlegal : ParametersLegal s) (hopen : s.wfail = false)
    (hpayload : payload.length ≤ 4095) (hpending : s.pending = .command 0x0040#16 payload :: rest)
    (hwrites : s.link.writes = .ok :: ws) (hreads : s.link.reads = r :: rs)
    (hframe : (receive s.cfg.slip.slipEnd Rx.idle r.bytes).isSome = true) :
    step s = .next (answeredSend s payload rest ws rs) := by
  have hsent : sendPacket payload { s with pending := rest } = _ := sendPacket_of_ok hopen hpayload hwrites hreads
  rw [step_sendPacket hlegal hpayload hpending, hsent, if_pos hframe]
  rfl

/-- The packets of consecutive sends, numbered from `n` on. -/
def numberedPackets (p : SlipParams) (payloads : List Bytes) (n : Nat) : Bytes :=
  (payloads.zipIdx n).flatMap fun pk => packet p (BitVec.ofNat 3 pk.2) pk.1

/-- The first of them, and those after it. -/
theorem numberedPackets_cons (p : SlipParams) (payload : Bytes) (payloads : List Bytes) (n : Nat) :
    numberedPackets p (payload :: payloads) n =
      packet p (BitVec.ofNat 3 n) payload ++ numberedPackets p payloads (n + 1) := by
  rw [numberedPackets, List.zipIdx_cons, List.flatMap_cons]
  rfl

/-- The host goes on with a SEND_PACKET of each of `payloads`, all within the limit, and the environment has fixed a
write that succeeds and a read that returns a frame for each; `rest`, `ws` and `rs` are what comes after them. -/
structure SendsAnswered (s : State) (payloads : List Bytes) (rest : List HostItem) (ws : List WriteDraw)
    (rs : List ReadDraw) : Prop where
  short : ∀ p ∈ payloads, p.length ≤ 4095
  pending : s.pending = (payloads.map fun p => .command 0x0040#16 p) ++ rest
  writes : s.link.writes = List.replicate payloads.length .ok ++ ws
  reads : ∃ rds, s.link.reads = rds ++ rs ∧ rds.length = payloads.length ∧
    ∀ d ∈ rds, (receive s.cfg.slip.slipEnd Rx.idle d.bytes).isSome = true

/-- The first of such sends, and the state in which the host goes on with the others. -/
theorem step_of_sendsAnswered {s : State} {payload : Bytes} {payloads : List Bytes} {rest : List HostItem}
    {ws : List WriteDraw} {rs : List ReadDraw} (hlegal : ParametersLegal s) (hopen : s.wfail = false)
    (hsends : SendsAnswered s (payload :: payloads) rest ws rs) :
    ∃ items writes reads, step s = .next (answeredSend s payload items writes reads) ∧
      SendsAnswered (answeredSend s payload items writes reads) payloads rest ws rs := by
  obtain ⟨hshort, hpending, hwrites, rds, hreads, hlength, hframes⟩ := hsends
  obtain ⟨r, rds, rfl⟩ := List.exists_cons_of_length_eq_add_one hlength
  rw [List.map_cons, List.cons_append] at hpending
  rw [List.length_cons, List.replicate_succ, List.cons_append] at hwrites
  rw [List.cons_append] at hreads
  obtain ⟨hpayload, hshort⟩ := List.forall_mem_cons.mp hshort
  obtain ⟨hframe, hframes⟩ := List.forall_mem_cons.mp hframes
  exact ⟨_, _, _, step_sendPacket_of_frame hlegal hopen hpayload hpending hwrites hreads hframe,
    hshort, rfl, rfl, rds, rfl, Nat.succ.inj hlength, hframes⟩

/-- Such sends one after another: `SEQ` counts them on from `n`, and their packets are on the wire in order under those
numbers. -/
theorem run_sendPackets {payloads : List Bytes} {rest : List HostItem} {ws : List WriteDraw} {rs : List ReadDraw}
    {n : Nat} {s : State} (hlegal : ParametersLegal s) (hseq : s.seq = BitVec.ofNat 3 n) (hopen : s.wfail = false)
    (hsends : SendsAnswered s payloads rest ws rs) :
    ∃ rx code reply, run payloads.length s = .next { s with
      seq := BitVec.ofNat 3 (n + payloads.length), txlog := s.txlog ++ numberedPackets s.cfg.slip payloads (n + 1),
      pending := rest, link := { s.link with writes := ws, reads := rs },
      rx := rx, result := code, reply := reply } := by
  induction payloads generalizing n s with
  | nil =>
    obtain ⟨-, hpending, hwrites, rds, hreads, hlength, -⟩ := hsends
    obtain rfl := List.length_eq_zero_iff.mp hlength
    refine ⟨s.rx, s.result, s.reply, ?_⟩
    rw [List.map_nil, List.nil_append] at hpending
    rw [List.length_nil, List.replicate_zero, List.nil_append] at hwrites
    rw [List.nil_append] at hreads
    rw [← hpending, ← hwrites, ← hreads, List.length_nil, Nat.add_zero, ← hseq]
    simp [numberedPackets, run_zero]
  | cons payload payloads ih =>
    have hnumber : s.seq + 1#3 = BitVec.ofNat 3 (n + 1) := by rw [hseq, BitVec.ofNat_add]
    obtain ⟨items, writes, reads, hstep, hrest⟩ := step_of_sendsAnswered hlegal hopen hsends
    obtain ⟨rx, code, reply, hrun⟩ := ih (s := answeredSend s payload items writes reads) hlegal hnumber hopen hrest
    refine ⟨rx, code, reply, ?_⟩
    rw [List.length_cons, run_succ _ _ _ hstep, hrun, numberedPackets_cons, ← hnumber, ← List.append_assoc,
      Nat.add_right_comm n, Nat.add_assoc n]
    rfl

/-- Settles O47: the counter law from 0, and the drain without a frame. -/
theorem sequenceCounterLaw : Obligations.SequenceCounterLaw := by
  refine ⟨?_, ?_⟩
  · intro s payloads rest ws rds rs hlegal hseq hopen hpayloads hpending hwrites hreads hlength hframes
    have hsends : SendsAnswered s payloads rest ws rs :=
      ⟨hpayloads, hpending, hwrites, rds, hreads, hlength, hframes⟩
    obtain ⟨rx, code, reply, hrun⟩ := run_sendPackets (n := 0) hlegal hseq hopen hsends
    refine ⟨_, hrun, ?_, hopen, rfl, rfl, rfl⟩
    rw [Nat.zero_add, BitVec.toNat_ofNat]
  · intro s payload ws r rs hopen hpayload hwrites hreads hframe
    refine ⟨_, exec_of_sendsPayload _ payload rfl s, ?_⟩
    rw [sendPacket_of_ok hopen hpayload hwrites hreads, hframe]
    rfl

end Sys2Proof.Proofs
end

section
/-! STATUS_READ and SESSION_RESET (spec/43_transport.md R180, R181). -/

namespace Sys2Proof.Proofs

open Sys2Proof.Machine Sys2Proof.Laws

/-- The STATUS view is its fields put side by side (10_state.md R29): bit by bit, none has a bit outside its own
place. -/
theorem statusWord_eq_append (s : State) :
    statusWord s =
      (s.crc ++ 0#8 ++ codeBits s.result ++ BitVec.ofBool s.wfail ++ s.seq : BitVec (16 + 8 + 4 + 1 + 3)) := by
  apply BitVec.eq_of_getLsbD_eq
  intro i hi
  simp only [statusWord, BitVec.getLsbD_append, BitVec.getLsbD_or, BitVec.getLsbD_shiftLeft, BitVec.getLsbD_setWidth]
  split_ifs <;> grind

/-- Vectors put side by side, on numbers. -/
theorem toNat_append_eq_add {m n : Nat} (x : BitVec m) (y : BitVec n) : (x ++ y).toNat = x.toNat * 2 ^ n + y.toNat := by
  rw [BitVec.toNat_append, ← Nat.shiftLeft_add_eq_or_of_lt y.isLt, Nat.shiftLeft_eq]

/-- The STATUS view as a number (10_state.md R29). -/
theorem statusWord_toNat (s : State) :
    (statusWord s).toNat =
      s.seq.toNat + 8 * s.wfail.toNat + 16 * (codeBits s.result).toNat + 65536 * s.crc.toNat := by
  rw [statusWord_eq_append]
  simp only [toNat_append_eq_add, BitVec.toNat_ofBool, BitVec.toNat_zero]
  omega

/-- Settles O48: the view as a number, and each field read at its own place. -/
theorem statusReadReturnsTheView : Obligations.StatusReadReturnsTheView := by
  intro s
  refine ⟨statusWord s, rfl, statusWord_toNat s, ?_⟩
  rw [statusWord_eq_append]
  refine ⟨BitVec.extractLsb'_append_eq_right, ?_, ?_, ?_, ?_⟩
  · rw [BitVec.getLsbD_append, BitVec.getLsbD_append]
    simp
  · rw [BitVec.extractLsb'_append_eq_of_le (by decide), BitVec.extractLsb'_append_eq_of_le (by decide)]
    exact BitVec.extractLsb'_append_eq_right
  · rw [BitVec.extractLsb'_append_eq_of_le (by decide), BitVec.extractLsb'_append_eq_of_le (by decide),
      BitVec.extractLsb'_append_eq_of_le (by decide)]
    exact BitVec.extractLsb'_append_eq_right
  · rw [BitVec.extractLsb'_append_eq_of_le (by decide), BitVec.extractLsb'_append_eq_of_le (by decide),
      BitVec.extractLsb'_append_eq_of_le (by decide)]
    exact BitVec.extractLsb'_append_eq_left

/-- What SESSION_RESET does (R181). -/
theorem exec_sessionReset (s : State) :
    exec .sessionReset s = .next (complete .ok 0#32 [] (resetRegisters s)) := rfl

/-- Settles O49: the reset keeps `TXLOG`, and the completion writes the triple. -/
theorem sessionResetKeepsTheWireHistory : Obligations.SessionResetKeepsTheWireHistory := by
  intro s
  rw [exec_sessionReset]
  rfl

end Sys2Proof.Proofs
end

section
/-! The four payloads of a transfer byte by byte, and the erase wait (spec/48_host_protocol.md R200 to R204). -/

namespace Sys2Proof.Proofs

open Sys2Proof.Machine Sys2Proof.Laws

/-- What a transferable pair keeps to (R200, R202). -/
theorem transferable_iff (image blob : Bytes) :
    transferable image blob = true ↔ image.length < 4294967296 ∧ blob.length ≤ 4089 := by
  simp [transferable]

/-- A number takes four bytes. -/
@[simp] theorem length_le32 (v : U32) : (le32 v).length = 4 := rfl

/-- The four bytes of a length that a `u32` holds add up to it. -/
theorem le32_ofNat_toNat {n : Nat} (hn : n < 4294967296) :
    ∃ l0 l1 l2 l3 : Byte, le32 (BitVec.ofNat 32 n) = [l0, l1, l2, l3] ∧
      l0.toNat + 256 * l1.toNat + 65536 * l2.toNat + 16777216 * l3.toNat = n := by
  refine ⟨_, _, _, _, rfl, ?_⟩
  rw [← ofLe32_toNat, ofLe32_le32, BitVec.toNat_ofNat]
  exact Nat.mod_eq_of_lt hn

/-- The Start payload's bytes (R200): all but the length are fixed. -/
theorem startPayload_eq (len : Nat) :
    startPayload len =
      [3#8, 0#8, 0#8, 0#8, 4#8, 0#8, 0#8, 0#8, 0#8, 0#8, 0#8, 0#8, 0#8, 0#8, 0#8, 0#8] ++
        le32 (BitVec.ofNat 32 len) := by
  have hfixed : le32 (dfuCode .start) ++ le32 4#32 ++ le32 0#32 ++ le32 0#32 =
      [3#8, 0#8, 0#8, 0#8, 4#8, 0#8, 0#8, 0#8, 0#8, 0#8, 0#8, 0#8, 0#8, 0#8, 0#8, 0#8] := by decide
  rw [startPayload, hfixed]

/-- The Init payload's bytes (R202). -/
theorem initPayload_eq (blob : Bytes) : initPayload blob = [1#8, 0#8, 0#8, 0#8] ++ blob ++ [0#8, 0#8] := by
  rw [initPayload, show le32 (dfuCode .init) = [1#8, 0#8, 0#8, 0#8] by decide]

/-- The Data payload's bytes (R203). -/
theorem dataPayload_eq (image : Bytes) (j : Nat) : dataPayload image j = [4#8, 0#8, 0#8, 0#8] ++ chunk image j := by
  rw [dataPayload, show le32 (dfuCode .data) = [4#8, 0#8, 0#8, 0#8] by decide]

/-- The Stop payload's bytes (R204). -/
theorem stopPayload_eq : stopPayload = [5#8, 0#8, 0#8, 0#8] := by decide

/-- Settles O57, from each payload's bytes. -/
theorem hostPayloadContents : Obligations.HostPayloadContents := by
  intro image blob htransferable
  obtain ⟨himage, -⟩ := (transferable_iff image blob).mp htransferable
  obtain ⟨l0, l1, l2, l3, hbytes, hvalue⟩ := le32_ofNat_toNat himage
  refine ⟨⟨l0, l1, l2, l3, ?_, hvalue⟩, initPayload_eq blob, dataPayload_eq image, stopPayload_eq⟩
  rw [startPayload_eq, hbytes]
  rfl

@[simp] theorem length_startPayload (len : Nat) : (startPayload len).length = 20 := rfl

@[simp] theorem length_initPayload (blob : Bytes) : (initPayload blob).length = 4 + blob.length + 2 := by
  simp only [initPayload, List.length_append, length_le32, List.length_cons, List.length_nil]

/-- The erase pages of R201 are the least number that holds the image. -/
theorem erasePages_bounds (len : Nat) : len ≤ 4096 * erasePages len ∧ 4096 * erasePages len < len + 4096 := by
  simp only [erasePages, ceilDiv]
  omega

/-- Settles O52: the lengths add up, and the erase wait follows the bounds of the number of pages. -/
theorem hostPayloadLengths : Obligations.HostPayloadLengths := by
  intro image blob htransferable
  obtain ⟨-, hblob⟩ := (transferable_iff image blob).mp htransferable
  have hinit := length_initPayload blob
  obtain ⟨hlower, hupper⟩ := erasePages_bounds image.length
  refine ⟨length_startPayload _, hinit, by omega, stopPayload_eq, ?_⟩
  simp only [eraseMs]
  refine ⟨le_max_right _ _, fun pages hbegun => ?_, fun pages henough => ?_⟩
  all_goals omega

end Sys2Proof.Proofs
end

section
/-! The chunks of an image (spec/48_host_protocol.md R203, R213). -/

namespace Sys2Proof.Proofs

open Sys2Proof.Machine Sys2Proof.Laws

/-- The number of chunks is the least that holds the image. -/
theorem chunkCount_bounds (len : Nat) : len ≤ 512 * chunkCount len ∧ 512 * chunkCount len < len + 512 := by
  simp only [chunkCount, ceilDiv]
  omega

/-- A chunk has 512 bytes, or what the image still has from its place on. -/
theorem length_chunk (image : Bytes) (j : Nat) : (chunk image j).length = min 512 (image.length - 512 * j) := by
  rw [chunk, List.length_take, List.length_drop]

/-- The first `n` chunks joined are the image's first `512 n` bytes. -/
theorem flatMap_chunk_range (image : Bytes) (n : Nat) :
    (List.range n).flatMap (chunk image) = image.take (512 * n) := by
  induction n with
  | zero => simp
  | succ n ih =>
    rw [List.range_succ, List.flatMap_append, ih, List.flatMap_singleton, Nat.mul_succ, List.take_add, chunk]

/-- A Data payload has at most 516 bytes. -/
theorem length_dataPayload_le (image : Bytes) (j : Nat) : (dataPayload image j).length ≤ 516 := by
  have hchunk := length_chunk image j
  rw [dataPayload, List.length_append, length_le32]
  omega

/-- Settles O50, from the length of a chunk and the bounds of their number. -/
theorem chunksRebuildTheImage : Obligations.ChunksRebuildTheImage := by
  intro image
  obtain ⟨hlower, hupper⟩ := chunkCount_bounds image.length
  refine ⟨?_, ⟨hlower, hupper⟩, fun j hj => ?_, fun j hj => ?_, length_dataPayload_le image⟩
  · rw [flatMap_chunk_range, List.take_of_length_le hlower]
  all_goals
    rw [length_chunk]
    omega

end Sys2Proof.Proofs
end

section
/-! Reported progress (spec/48_host_protocol.md R211). -/

namespace Sys2Proof.Proofs

open Sys2Proof.Machine Sys2Proof.Laws

/-- The progress values of the data phase of a transfer of `n` chunks. -/
def progressRamp (n : Nat) : List Nat := if n = 0 then [] else (List.range (n + 1)).map (dataProgress n)

/-- The values of a transfer: fixed ones before and after the data phase. -/
theorem progressValues_eq (len : Nat) :
    progressValues len = [0, 2, 5] ++ progressRamp (chunkCount len) ++ [95, 100] := rfl

/-- With a chunk to send, the ramp runs from none sent to all sent. -/
theorem progressRamp_of_pos {n : Nat} (hn : 0 < n) : progressRamp n = (List.range (n + 1)).map (dataProgress n) :=
  if_neg hn.ne'

/-- Progress grows with what has been sent. -/
theorem dataProgress_mono (n : Nat) {k k' : Nat} (hk : k ≤ k') : dataProgress n k ≤ dataProgress n k' := by
  have hround : (2 * 82 * k + n) / (2 * n) ≤ (2 * 82 * k' + n) / (2 * n) := Nat.div_le_div_right (by omega)
  exact Nat.add_le_add_left hround 8

/-- The data phase ends at 90. -/
theorem dataProgress_le {n k : Nat} (hn : 0 < n) (hk : k ≤ n) : dataProgress n k ≤ 90 := by
  have hround : (2 * 82 * k + n) / (2 * n) < 83 := Nat.div_lt_of_lt_mul (by omega)
  rw [dataProgress]
  omega

/-- The data phase begins at 8. -/
theorem le_dataProgress (n k : Nat) : 8 ≤ dataProgress n k := Nat.le_add_right _ _

/-- The ramp does not fall. -/
theorem pairwise_progressRamp (n : Nat) : (progressRamp n).Pairwise (· ≤ ·) := by
  rcases n.eq_zero_or_pos with rfl | hn
  · exact .nil
  · rw [progressRamp_of_pos hn, List.pairwise_map]
    exact List.pairwise_lt_range.imp fun hlt => dataProgress_mono n hlt.le

/-- The ramp lies between the values before it and those after it. -/
theorem mem_progressRamp {n v : Nat} (hv : v ∈ progressRamp n) : 8 ≤ v ∧ v ≤ 90 := by
  rcases n.eq_zero_or_pos with rfl | hn
  · cases hv
  · rw [progressRamp_of_pos hn, List.mem_map] at hv
    obtain ⟨k, hk, rfl⟩ := hv
    exact ⟨le_dataProgress n k, dataProgress_le hn (Nat.lt_succ_iff.mp (List.mem_range.mp hk))⟩

/-- Settles O53: the ramp is sorted and fits between the fixed values, and a division's quotient is the number that its
two bounds name. -/
theorem progressNeverFalls : Obligations.ProgressNeverFalls := by
  intro len
  refine ⟨?_, progressRamp (chunkCount len), progressValues_eq len, fun hzero => if_pos hzero, fun hpos => ?_⟩
  · rw [progressValues_eq, List.pairwise_append, List.pairwise_append]
    refine ⟨⟨by decide, pairwise_progressRamp _, fun a ha b hb => ?_⟩, by decide, fun a ha b hb => ?_⟩
    · have := mem_progressRamp hb
      simp only [List.mem_cons, List.not_mem_nil, or_false] at ha
      omega
    · rw [List.mem_append] at ha
      simp only [List.mem_cons, List.not_mem_nil, or_false] at ha hb
      rcases ha with ha | ha
      · omega
      · have := mem_progressRamp ha
        omega
  · rw [progressRamp_of_pos hpos]
    refine ⟨by rw [List.length_map, List.length_range], fun k v hv => ?_⟩
    obtain ⟨hk, rfl⟩ := List.getElem?_eq_some_iff.mp hv
    rw [List.getElem_map, List.getElem_range]
    refine ⟨_, rfl, Nat.mul_div_le _ _, ?_⟩
    rw [← Nat.mul_succ]
    exact Nat.lt_mul_div_succ _ (by omega)

end Sys2Proof.Proofs
end

section
/-! The program of a transfer as SEND_PACKETs and waits (spec/48_host_protocol.md R205, R206): the payloads it sends,
and its page-write delays. -/

namespace Sys2Proof.Proofs

open Sys2Proof.Machine Sys2Proof.Laws

/-- The payload of an item that is a SEND_PACKET. -/
def sentPayload : HostItem → Option Bytes
  | .command w data => if w = 0x0040#16 then some data else none
  | .payload _ => none
  | .wait _ => none
  | .hardwareReset => none

@[simp] theorem sentPayload_sendItem (payload : Bytes) : sentPayload (sendItem payload) = some payload := by
  rw [sendItem_eq]
  rfl

@[simp] theorem sentPayload_wait (ms : Nat) : sentPayload (.wait ms) = none := rfl

/-- The host's own test for a SEND_PACKET agrees. -/
theorem isSend_eq_isSome (h : HostItem) : isSend h = (sentPayload h).isSome := by
  cases h with
  | command w data => by_cases hw : w = 0x0040#16 <;> simp [isSend, sentPayload, hw]
  | payload | wait | hardwareReset => rfl

/-- What the host does for chunk `j` of `n` sends the chunk's Data payload. -/
theorem sentPayload_chunkItems (image : Bytes) (n j : Nat) :
    (chunkItems image n j).filterMap sentPayload = [dataPayload image j] := by
  unfold chunkItems
  split <;> simp

/-- A transfer's program sends the transfer's payloads. -/
theorem sentPayload_transferProgram (image blob : Bytes) :
    (transferProgram image blob).filterMap sentPayload = transferPayloads image blob := by
  have hreset : sentPayload (encode .sessionReset) = none := by decide
  rw [transferProgram_eq, List.filterMap_append, List.filterMap_append, List.filterMap_flatMap]
  simp [List.filterMap_cons, sentPayload_chunkItems, hreset, transferPayloads, List.map_eq_flatMap]

/-- The payloads of a transfer: one for each chunk and three more. -/
theorem length_transferPayloads (image blob : Bytes) :
    (transferPayloads image blob).length = chunkCount image.length + 3 := by
  simp [transferPayloads]

/-- The page delay after a chunk, on numbers (R206). -/
theorem pageDelayAfter_iff (n j : Nat) : pageDelayAfter n j = true ↔ (j + 1) % 8 = 0 ∧ j + 1 ≠ n := by
  simp [pageDelayAfter]

/-- The items of chunk `j` of `n`, written out (R205, R206). -/
theorem chunkItems_eq (image : Bytes) (n j : Nat) :
    chunkItems image n j =
      [.command 0x0040#16 (dataPayload image j)] ++
        (if (j + 1) % 8 = 0 ∧ j + 1 ≠ n then [.wait 100] else []) := by
  simp only [chunkItems, pageDelayAfter_iff, sendItem_eq]
  rfl

/-- A chunk has its page delay at most once. -/
theorem count_chunkItems (image : Bytes) (n j : Nat) :
    (chunkItems image n j).count (.wait 100) = if (j + 1) % 8 = 0 ∧ j + 1 ≠ n then 1 else 0 := by
  rw [chunkItems_eq]
  split <;> simp

/-- The page delays of the first `m` of `n` chunks: one for each eight of them, but for the last of the `n`. -/
theorem count_chunkItems_range (image : Bytes) {n m : Nat} (hm : m ≤ n) :
    ((List.range m).flatMap (chunkItems image n)).count (.wait 100) = min m (n - 1) / 8 := by
  induction m with
  | zero => simp
  | succ m ih =>
    rw [List.range_succ, List.flatMap_append, List.count_append, List.flatMap_singleton, ih (by omega),
      count_chunkItems]
    split <;> omega

/-- Neither of the transfer's other two waits is a page delay. -/
theorem count_transferProgram_wait (image blob : Bytes) :
    (transferProgram image blob).count (.wait 100) = (chunkCount image.length - 1) / 8 := by
  have herase : eraseMs image.length ≠ 100 := by
    simp only [eraseMs]
    omega
  rw [transferProgram_eq, List.count_append, List.count_append, count_chunkItems_range image le_rfl,
    encode_sessionReset]
  simp [sendItem_eq, settleMs, herase]

/-- Settles O55: the counts of the page delays and of the payloads sent, and a chunk's items. -/
theorem pageDelaysFollowEveryEighthChunk : Obligations.PageDelaysFollowEveryEighthChunk := by
  intro image blob
  refine ⟨count_transferProgram_wait image blob, ?_, chunkItems_eq image _⟩
  rw [← length_transferPayloads image blob, ← sentPayload_transferProgram, List.length_filterMap_eq_countP]
  exact List.countP_congr fun h _ => by rw [isSend_eq_isSome]

end Sys2Proof.Proofs
end

section
/-! Sends do not read what the host does next: the packet-send primitive commutes with a change of it. -/

namespace Sys2Proof.Proofs

open Sys2Proof.Machine Sys2Proof.Laws

/-- `s` with `items` for what the host does next. -/
def withPending (items : List HostItem) (s : State) : State := { s with pending := items }

/-- A state that is given its own pending items is as it was. -/
theorem withPending_self {items : List HostItem} {s : State} (hpending : s.pending = items) :
    withPending items s = s := by
  subst hpending
  rfl

section

variable (items : List HostItem) (s : State)

theorem drawWrite_withPending : drawWrite (withPending items s) = (drawWrite s).map id (withPending items) := by
  cases hwrites : s.link.writes with
  | nil =>
    rw [drawWrite_free hwrites, drawWrite_free (s := withPending items s) hwrites]
    rfl
  | cons d ds =>
    rw [drawWrite_fixed s d ds hwrites, drawWrite_fixed (withPending items s) d ds hwrites]
    rfl

theorem drawRead_withPending : drawRead (withPending items s) = (drawRead s).map id (withPending items) := by
  cases hreads : s.link.reads with
  | nil =>
    rw [drawRead_free hreads, drawRead_free (s := withPending items s) hreads]
    rfl
  | cons d ds =>
    rw [drawRead_fixed s d ds hreads, drawRead_fixed (withPending items s) d ds hreads]
    rfl

theorem sendDrain_withPending : sendDrain (withPending items s) = withPending items (sendDrain s) := by
  have hdraw : drawRead { withPending items s with rx := Rx.idle } = _ :=
    drawRead_withPending items { s with rx := Rx.idle }
  have hread : uartReadFrame ackTimeoutMs (withPending items s) =
      (uartReadFrame ackTimeoutMs s).map id (withPending items) := by
    rw [uartReadFrame, hdraw]
    rfl
  rw [sendDrain, sendDrain, hread]
  rcases uartReadFrame ackTimeoutMs s with ⟨_ | _ | _, t⟩ <;> rfl

theorem sendFrame_withPending (payload : Bytes) :
    sendFrame payload (withPending items s) = withPending items (sendFrame payload s) := by
  have hother : uartWrite (packet s.cfg.slip s.seq payload) (withPending items s) =
      (uartWrite (packet s.cfg.slip s.seq payload) s).map id (withPending items) := by
    rw [uartWrite, drawWrite_withPending]
    rfl
  cases hwrite : uartWrite (packet s.cfg.slip s.seq payload) s with
  | mk d t =>
    rw [hwrite] at hother
    cases d with
    | ok =>
      rw [sendFrame_of_ok hwrite, sendFrame_of_ok hother, sendDrain_withPending]
      rfl
    | ioError k =>
      rw [sendFrame_of_ioError hwrite, sendFrame_of_ioError hother]
      rfl

theorem sendPacket_withPending (payload : Bytes) :
    sendPacket payload (withPending items s) = withPending items (sendPacket payload s) := by
  rw [sendPacket, sendPacket, apply_ite (withPending items), apply_ite (withPending items), ← sendFrame_withPending]
  rfl

end

end Sys2Proof.Proofs
end

section
/-! Sends one after another, and a run over a program of SEND_PACKETs and waits: it does to the block what the sends
alone do. -/

namespace Sys2Proof.Proofs

open Sys2Proof.Machine Sys2Proof.Laws

/-- The payloads handed to the packet-send primitive one after another. -/
def sendAll (payloads : List Bytes) (s : State) : State := payloads.foldl (fun t payload => sendPacket payload t) s

@[simp] theorem sendAll_nil (s : State) : sendAll [] s = s := rfl

@[simp] theorem sendAll_cons (payload : Bytes) (payloads : List Bytes) (s : State) :
    sendAll (payload :: payloads) s = sendAll payloads (sendPacket payload s) := rfl

/-- A send keeps the parameters. -/
theorem sendPacket_cfg (payload : Bytes) (s : State) : (sendPacket payload s).cfg = s.cfg := by
  rcases sendPacket_cases payload s with ⟨-, h⟩ | ⟨-, -, h⟩ | ⟨-, -, ⟨q, l, -, h⟩ | ⟨k, l, -, h⟩⟩
  all_goals simp [h]

/-- A send keeps the parameters legal. -/
theorem sendPacket_legal {s : State} (hlegal : ParametersLegal s) (payload : Bytes) :
    ParametersLegal (sendPacket payload s) := by
  rw [ParametersLegal, sendPacket_cfg]
  exact hlegal

/-- Sends do not touch what the host does next. -/
theorem sendAll_pending (payloads : List Bytes) (s : State) : (sendAll payloads s).pending = s.pending := by
  induction payloads generalizing s with
  | nil => rfl
  | cons payload payloads ih => rw [sendAll_cons, ih, sendPacket_pending]

/-- The items of a transfer after its SESSION_RESET: waits, and SEND_PACKETs of payloads within the limit. -/
def SendOrWait (h : HostItem) : Prop :=
  (∃ ms, h = .wait ms) ∨ ∃ payload : Bytes, payload.length ≤ 4095 ∧ h = sendItem payload

/-- The step that takes a wait leaves the block as it is (60_exceptions.md R254). -/
theorem step_wait {s : State} (hlegal : ParametersLegal s) (ms : Nat) (rest : List HostItem) :
    step (withPending (.wait ms :: rest) s) = .next (withPending rest s) := by
  rw [step, fetch_of_cons (s := withPending (.wait ms :: rest) s) hlegal rfl]
  rfl

/-- The step that takes a SEND_PACKET does to the block what the send does. -/
theorem step_sendItem {s : State} {payload : Bytes} (hlegal : ParametersLegal s) (hshort : payload.length ≤ 4095)
    (rest : List HostItem) :
    step (withPending (sendItem payload :: rest) s) = .next (withPending rest (sendPacket payload s)) := by
  rw [sendItem_eq, step_sendPacket (s := withPending (_ :: rest) s) hlegal hshort rfl, ← sendPacket_withPending]
  rfl

/-- A run over SEND_PACKETs and waits, whatever the environment does. -/
theorem run_sendsAndWaits {items : List HostItem} (hitems : ∀ h ∈ items, SendOrWait h) (rest : List HostItem)
    {s : State} (hlegal : ParametersLegal s) :
    run items.length (withPending (items ++ rest) s) =
      .next (withPending rest (sendAll (items.filterMap sentPayload) s)) := by
  induction items generalizing s with
  | nil => rfl
  | cons h items ih =>
    obtain ⟨hitem, hrest⟩ := List.forall_mem_cons.mp hitems
    rw [List.length_cons, List.cons_append]
    rcases hitem with ⟨ms, rfl⟩ | ⟨payload, hshort, rfl⟩
    · rw [run_succ _ _ _ (step_wait hlegal ms _), ih hrest hlegal]
      rfl
    · rw [run_succ _ _ _ (step_sendItem hlegal hshort _), ih hrest (sendPacket_legal hlegal payload),
        List.filterMap_cons_some (sentPayload_sendItem payload), sendAll_cons]

/-- Sends that are written whole and answered by frames: `SEQ` counts them on from `n`, and their packets are on the
wire in order under those numbers (43_transport.md R176). -/
theorem sendAll_of_answered {payloads : List Bytes} {ws : List WriteDraw} {rds rs : List ReadDraw} {n : Nat} {s : State}
    (hlegal : ParametersLegal s) (hseq : s.seq = BitVec.ofNat 3 n) (hopen : s.wfail = false)
    (hshort : ∀ p ∈ payloads, p.length ≤ 4095) (hwrites : s.link.writes = List.replicate payloads.length .ok ++ ws)
    (hreads : s.link.reads = rds ++ rs) (hlength : rds.length = payloads.length)
    (hframes : ∀ d ∈ rds, (receive s.cfg.slip.slipEnd Rx.idle d.bytes).isSome = true) :
    ∃ rx code reply, sendAll payloads s = { s with
      seq := BitVec.ofNat 3 (n + payloads.length), txlog := s.txlog ++ numberedPackets s.cfg.slip payloads (n + 1),
      link := { s.link with writes := ws, reads := rs }, rx := rx, result := code, reply := reply } := by
  have hitems : ∀ h ∈ payloads.map sendItem, SendOrWait h := by
    intro h hh
    obtain ⟨p, hp, rfl⟩ := List.mem_map.mp hh
    exact .inr ⟨p, hshort p hp, rfl⟩
  have hsent : (payloads.map sendItem).filterMap sentPayload = payloads := by
    simp [List.filterMap_map]
  have hpending : payloads.map sendItem = payloads.map fun p => .command 0x0040#16 p :=
    List.map_congr_left fun p _ => sendItem_eq p
  obtain ⟨rx, code, reply, hrun⟩ := run_sendPackets (s := withPending (payloads.map sendItem ++ s.pending) s)
    (rest := s.pending) hlegal hseq hopen
    ⟨hshort, congrArg (· ++ s.pending) hpending, hwrites, rds, hreads, hlength, hframes⟩
  have hall := run_sendsAndWaits hitems s.pending hlegal
  rw [List.length_map, hrun, hsent, withPending_self (sendAll_pending payloads s)] at hall
  exact ⟨rx, code, reply, (Host.Outcome.next.inj hall).symm⟩

end Sys2Proof.Proofs
end

section
/-! The host carrying out a plan of SEND_PACKETs and waits while every write succeeds (spec/48_host_protocol.md R205,
R207, R208). -/

namespace Sys2Proof.Proofs

open Sys2Proof.Machine Sys2Proof.Laws

/-- A session that has not failed, whose next `n` writes are drawn ok; `ws` are the draws fixed after them. -/
structure WritesSucceed (s : State) (n : Nat) (ws : List WriteDraw) : Prop where
  legal : ParametersLegal s
  wfail : s.wfail = false
  writes : s.link.writes = List.replicate n .ok ++ ws

/-- A read draw leaves the draws fixed for writes. -/
theorem drawRead_writes (s : State) : (drawRead s).2.link.writes = s.link.writes := by
  cases hreads : s.link.reads with
  | nil => rw [drawRead_free hreads]
  | cons d ds => rw [drawRead_fixed s d ds hreads]

/-- So does the drain of a send. -/
theorem sendDrain_writes (s : State) : (sendDrain s).link.writes = s.link.writes := by
  have hread : (uartReadFrame ackTimeoutMs s).2.link.writes = s.link.writes := drawRead_writes { s with rx := Rx.idle }
  rw [sendDrain]
  rcases huart : uartReadFrame ackTimeoutMs s with ⟨_ | _ | _, t⟩
  all_goals
    rw [huart] at hread
    exact hread

/-- A send whose write succeeds takes that draw and completes with `OK`, whatever its read returns. -/
theorem sendPacket_of_writesSucceed {s : State} {payload : Bytes} {n : Nat} {ws : List WriteDraw}
    (hs : WritesSucceed s (n + 1) ws) (hshort : payload.length ≤ 4095) :
    WritesSucceed (sendPacket payload s) n ws ∧ (sendPacket payload s).reply.map Reply.code = some .ok := by
  obtain ⟨hlegal, hopen, hwrites⟩ := hs
  rw [List.replicate_succ, List.cons_append] at hwrites
  have hsent := sendPacket_of_open hopen hshort
  rw [sendFrame_of_ok (uartWrite_fixed _ { s with seq := s.seq + 1#3 } .ok _ hwrites)] at hsent
  refine ⟨⟨sendPacket_legal hlegal payload, ?_, ?_⟩, ?_⟩
  · obtain ⟨q, l, hdrain, -⟩ := sendDrain_spec (uartWrite (packet s.cfg.slip (s.seq + 1#3) payload)
      { s with seq := s.seq + 1#3 }).2
    rw [uartWrite_fixed _ { s with seq := s.seq + 1#3 } .ok _ hwrites] at hdrain
    rw [hsent, hdrain]
    exact hopen
  · rw [hsent, complete_link, sendDrain_writes]
  · rw [hsent, complete_reply]
    rfl

/-- Sends whose writes all succeed. -/
theorem sendAll_of_writesSucceed {payloads : List Bytes} {n : Nat} {ws : List WriteDraw} {s : State}
    (hs : WritesSucceed s (payloads.length + n) ws) (hshort : ∀ p ∈ payloads, p.length ≤ 4095) :
    WritesSucceed (sendAll payloads s) n ws := by
  induction payloads generalizing s with
  | nil => simpa using hs
  | cons payload payloads ih =>
    obtain ⟨hpayload, hshort⟩ := List.forall_mem_cons.mp hshort
    rw [List.length_cons, Nat.add_right_comm] at hs
    obtain ⟨hnext, -⟩ := sendPacket_of_writesSucceed hs hpayload
    exact ih hnext hshort

/-- A wait the host issues leaves the block as it is. -/
theorem step_issueFirst_wait {s : State} (hlegal : ParametersLegal s) (ms : Nat) :
    step (issueFirst (.wait ms) s) = .next s :=
  step_wait hlegal ms s.pending

/-- A SEND_PACKET the host issues is the send. -/
theorem step_issueFirst_sendItem {s : State} {payload : Bytes} (hlegal : ParametersLegal s)
    (hshort : payload.length ≤ 4095) : step (issueFirst (sendItem payload) s) = .next (sendPacket payload s) := by
  have hstep := step_sendItem hlegal hshort s.pending
  rw [withPending_self (sendPacket_pending payload s)] at hstep
  exact hstep

/-- The sends of a plan, with the states they are done in. -/
def planSends (plan : List (TransferPhase × HostItem)) : List (TransferPhase × Bytes) :=
  plan.filterMap fun e => (sentPayload e.2).map (Prod.mk e.1)

/-- The payloads of a plan's sends are those its program sends. -/
theorem planSends_map_snd (plan : List (TransferPhase × HostItem)) :
    (planSends plan).map Prod.snd = (plan.map Prod.snd).filterMap sentPayload := by
  simp [planSends, List.map_filterMap, List.filterMap_map, Function.comp_def]

/-- A send of a plan, and those after it. -/
theorem planSends_cons_sendItem (phase : TransferPhase) (payload : Bytes) (plan : List (TransferPhase × HostItem)) :
    planSends ((phase, sendItem payload) :: plan) = (phase, payload) :: planSends plan :=
  List.filterMap_cons_some (by rw [sentPayload_sendItem]; rfl)

/-- An entry of a plan after which the host goes on unless a write fails. -/
def GoesOn (e : TransferPhase × HostItem) : Prop := e.1 ≠ .failed ∧ SendOrWait e.2

/-- While the writes succeed, the host carries out the plan's first part as the sends it has, records no chunk, and goes
on with the rest. -/
theorem conductTransfer_append {plan : List (TransferPhase × HostItem)} (hplan : ∀ e ∈ plan, GoesOn e)
    (more : List (TransferPhase × HostItem)) {n : Nat} {ws : List WriteDraw} (record : HostRecord) {s : State}
    (hs : WritesSucceed s ((planSends plan).length + n) ws) :
    conductTransfer (plan ++ more) record s =
      conductTransfer more { record with phase := (plan.map Prod.fst).getLastD record.phase }
        (sendAll ((planSends plan).map Prod.snd) s) := by
  induction plan generalizing record s with
  | nil => rfl
  | cons e plan ih =>
    obtain ⟨⟨hphase, hitem⟩, hrest⟩ := List.forall_mem_cons.mp hplan
    obtain ⟨phase, h⟩ := e
    rw [List.cons_append, List.map_cons, List.getLastD_cons]
    rcases hitem with ⟨ms, rfl⟩ | ⟨payload, hshort, rfl⟩
    · rw [conductTransfer_next _ _ _ _ _ _ (step_issueFirst_wait hs.legal ms) hphase (.inl rfl), ih hrest _ hs]
      rfl
    · rw [planSends_cons_sendItem, List.length_cons, Nat.add_right_comm] at hs
      obtain ⟨hnext, hok⟩ := sendPacket_of_writesSucceed hs hshort
      rw [conductTransfer_next _ _ _ _ _ _ (step_issueFirst_sendItem hs.legal hshort) hphase (.inr (by simp [hok])),
        ih hrest _ hnext, planSends_cons_sendItem]
      rfl

end Sys2Proof.Proofs
end

section
/-! The plan of a transfer: SESSION_RESET, then sends and waits (spec/48_host_protocol.md R205). -/

namespace Sys2Proof.Proofs

open Sys2Proof.Machine Sys2Proof.Laws

/-- The plan after SESSION_RESET. -/
def planAfterReset (image blob : Bytes) : List (TransferPhase × HostItem) :=
  [(TransferPhase.starting, sendItem (startPayload image.length)),
    (TransferPhase.erasingWait, HostItem.wait (eraseMs image.length)),
    (TransferPhase.sendingInit, sendItem (initPayload blob)), (TransferPhase.sendingInit, HostItem.wait settleMs)] ++
  (List.range (chunkCount image.length)).flatMap
    (fun j => (chunkItems image (chunkCount image.length) j).map fun h => (TransferPhase.transferringData j, h)) ++
  [(TransferPhase.finalizing, sendItem stopPayload)]

/-- The plan is SESSION_RESET and what comes after it. -/
theorem transferPlan_eq (image blob : Bytes) :
    transferPlan image blob = (.idle, encode .sessionReset) :: planAfterReset image blob := rfl

/-- The sends of a transfer, with the states they are done in. -/
def transferSends (image blob : Bytes) : List (TransferPhase × Bytes) :=
  [(TransferPhase.starting, startPayload image.length), (TransferPhase.sendingInit, initPayload blob)] ++
  (List.range (chunkCount image.length)).map (fun j => (TransferPhase.transferringData j, dataPayload image j)) ++
  [(TransferPhase.finalizing, stopPayload)]

/-- A chunk's one send, with its state. -/
theorem planSends_chunkItems (image : Bytes) (n j : Nat) :
    planSends ((chunkItems image n j).map fun h => (.transferringData j, h)) =
      [(.transferringData j, dataPayload image j)] := by
  have hsent := congrArg (List.map (Prod.mk (TransferPhase.transferringData j))) (sentPayload_chunkItems image n j)
  rw [List.map_filterMap] at hsent
  rw [planSends, List.filterMap_map]
  exact hsent

/-- A plan's sends, over two plans joined. -/
theorem planSends_append (plan more : List (TransferPhase × HostItem)) :
    planSends (plan ++ more) = planSends plan ++ planSends more :=
  List.filterMap_append

/-- A plan's sends, over any number of plans joined. -/
theorem planSends_flatMap {α : Type} (l : List α) (f : α → List (TransferPhase × HostItem)) :
    planSends (l.flatMap f) = l.flatMap fun a => planSends (f a) :=
  List.filterMap_flatMap

/-- What the plan sends. -/
theorem planSends_planAfterReset (image blob : Bytes) :
    planSends (planAfterReset image blob) = transferSends image blob := by
  simp only [planAfterReset, planSends_append, planSends_flatMap, planSends_chunkItems, ← List.map_eq_flatMap]
  simp [planSends, List.filterMap_cons, transferSends]

/-- The payloads of the transfer are those of its sends. -/
theorem transferSends_map_snd (image blob : Bytes) :
    (transferSends image blob).map Prod.snd = transferPayloads image blob := by
  simp [transferPayloads, transferSends, Function.comp_def]

theorem length_transferSends (image blob : Bytes) :
    (transferSends image blob).length = chunkCount image.length + 3 := by
  rw [← length_transferPayloads image blob, ← transferSends_map_snd, List.length_map]

/-- Every payload of a transferable pair is within the limit. -/
theorem length_le_of_mem_transferPayloads {image blob payload : Bytes} (htransferable : transferable image blob = true)
    (hmem : payload ∈ transferPayloads image blob) : payload.length ≤ 4095 := by
  obtain ⟨-, hblob⟩ := (transferable_iff image blob).mp htransferable
  simp only [transferPayloads, List.mem_append, List.mem_cons, List.mem_map, List.not_mem_nil, or_false] at hmem
  rcases hmem with ((rfl | rfl) | ⟨j, -, rfl⟩) | rfl
  · rw [length_startPayload]
    decide
  · rw [length_initPayload]
    omega
  · have := length_dataPayload_le image j
    omega
  · decide

/-- What the host does for a chunk is a send, and perhaps a wait. -/
theorem sendOrWait_of_mem_chunkItems {image : Bytes} {n j : Nat} {h : HostItem} (hmem : h ∈ chunkItems image n j) :
    SendOrWait h := by
  rw [chunkItems, List.mem_cons] at hmem
  rcases hmem with rfl | hwait
  · exact .inr ⟨_, (length_dataPayload_le image j).trans (by decide), rfl⟩
  · split at hwait
    · exact .inl ⟨_, List.mem_singleton.mp hwait⟩
    · cases hwait

/-- All of the plan after SESSION_RESET is sends and waits. -/
theorem goesOn_of_mem_planAfterReset {image blob : Bytes} (htransferable : transferable image blob = true)
    {e : TransferPhase × HostItem} (he : e ∈ planAfterReset image blob) : GoesOn e := by
  have hshort {payload : Bytes} (hmem : payload ∈ transferPayloads image blob) : payload.length ≤ 4095 :=
    length_le_of_mem_transferPayloads htransferable hmem
  simp only [planAfterReset, List.mem_append, List.mem_cons, List.mem_flatMap, List.mem_map, List.not_mem_nil,
    or_false] at he
  rcases he with ((rfl | rfl | rfl | rfl) | ⟨j, -, h, hh, rfl⟩) | rfl
  · exact ⟨nofun, .inr ⟨_, hshort (by simp [transferPayloads]), rfl⟩⟩
  · exact ⟨nofun, .inl ⟨_, rfl⟩⟩
  · exact ⟨nofun, .inr ⟨_, hshort (by simp [transferPayloads]), rfl⟩⟩
  · exact ⟨nofun, .inl ⟨_, rfl⟩⟩
  · exact ⟨nofun, sendOrWait_of_mem_chunkItems hh⟩
  · exact ⟨nofun, .inr ⟨_, hshort (by simp [transferPayloads]), rfl⟩⟩

end Sys2Proof.Proofs
end

section
/-! A whole transfer: the program run (spec/48_host_protocol.md R205), and the plan carried out while no write fails
(R207, R208). -/

namespace Sys2Proof.Proofs

open Sys2Proof.Machine Sys2Proof.Laws

/-- The block after SESSION_RESET (43_transport.md R181). -/
def newSession (s : State) : State := complete .ok 0#32 [] (resetRegisters s)

/-- The step that takes the word of SESSION_RESET. -/
theorem step_sessionReset {s : State} (hlegal : ParametersLegal s) (rest : List HostItem) :
    step (withPending (encode .sessionReset :: rest) s) = .next (withPending rest (newSession s)) := by
  rw [withPending, step_withItem_of_ok rest hlegal (decodeInvertsEncode s.cfg .sessionReset rfl), exec_sessionReset]
  rfl

/-- The program of a transfer after its SESSION_RESET is sends and waits. -/
theorem transferProgram_eq_cons {image blob : Bytes} (htransferable : transferable image blob = true) :
    ∃ items, transferProgram image blob = encode .sessionReset :: items ∧ (∀ h ∈ items, SendOrWait h) ∧
      items.filterMap sentPayload = transferPayloads image blob := by
  refine ⟨(planAfterReset image blob).map Prod.snd, ?_, ?_, ?_⟩
  · rw [transferProgram, transferPlan_eq, List.map_cons]
  · intro h hh
    obtain ⟨e, he, rfl⟩ := List.mem_map.mp hh
    exact (goesOn_of_mem_planAfterReset htransferable he).2
  · rw [← planSends_map_snd, planSends_planAfterReset, transferSends_map_snd]

/-- The run of a transfer's program is a new session and the transfer's sends, whatever the environment does. -/
theorem run_transferProgram {image blob : Bytes} (htransferable : transferable image blob = true)
    (rest : List HostItem) {s : State} (hlegal : ParametersLegal s) :
    run (transferProgram image blob).length (withPending (transferProgram image blob ++ rest) s) =
      .next (withPending rest (sendAll (transferPayloads image blob) (newSession s))) := by
  obtain ⟨items, hprogram, hitems, hsent⟩ := transferProgram_eq_cons htransferable
  rw [hprogram, List.length_cons, List.cons_append, run_succ _ _ _ (step_sessionReset hlegal _),
    run_sendsAndWaits hitems rest (s := newSession s) hlegal, hsent]

/-- Sends before one more, and that one. -/
theorem sendAll_concat (payloads : List Bytes) (payload : Bytes) (s : State) :
    sendAll (payloads ++ [payload]) s = sendPacket payload (sendAll payloads s) :=
  List.foldl_append

/-- The packets of consecutive sends, of which the last `more`. -/
theorem numberedPackets_append (p : SlipParams) (payloads more : List Bytes) (n : Nat) :
    numberedPackets p (payloads ++ more) n =
      numberedPackets p payloads n ++ numberedPackets p more (n + payloads.length) := by
  rw [numberedPackets, List.zipIdx_append, List.flatMap_append]
  rfl

/-- The packets of the payloads `f 0`, `f 1` and so on up to the `m`th. -/
theorem numberedPackets_map_range (p : SlipParams) (f : Nat → Bytes) (m n : Nat) :
    numberedPackets p ((List.range m).map f) n =
      (List.range m).flatMap fun j => packet p (BitVec.ofNat 3 (j + n)) (f j) := by
  induction m with
  | zero => rfl
  | succ m ih =>
    rw [List.range_succ, List.map_append, numberedPackets_append, ih, List.flatMap_append, List.length_map,
      List.length_range, Nat.add_comm n]
    simp [numberedPackets]

/-- The payloads before Stop. -/
def payloadsBeforeStop (image blob : Bytes) : List Bytes :=
  [startPayload image.length, initPayload blob] ++ (List.range (chunkCount image.length)).map (dataPayload image)

/-- Stop comes last. -/
theorem transferPayloads_eq (image blob : Bytes) :
    transferPayloads image blob = payloadsBeforeStop image blob ++ [stopPayload] := rfl

theorem length_payloadsBeforeStop (image blob : Bytes) :
    (payloadsBeforeStop image blob).length = chunkCount image.length + 2 := by
  simp [payloadsBeforeStop]

/-- The packets before Stop: Start under 1, Init under 2, the chunks from 3 on. -/
theorem numberedPackets_payloadsBeforeStop (p : SlipParams) (image blob : Bytes) :
    numberedPackets p (payloadsBeforeStop image blob) 1 =
      packet p 1#3 (startPayload image.length) ++ packet p 2#3 (initPayload blob) ++
        (List.range (chunkCount image.length)).flatMap
          fun j => packet p (BitVec.ofNat 3 (j + 3)) (dataPayload image j) := by
  rw [← numberedPackets_map_range p (dataPayload image), payloadsBeforeStop, List.cons_append, List.cons_append,
    List.nil_append, numberedPackets_cons, numberedPackets_cons, ← List.append_assoc]

/-- Settles O51: all sends before Stop are answered, and Stop is written and reads as drawn. -/
theorem transferSendsEveryPacketInOrder : Obligations.TransferSendsEveryPacketInOrder := by
  intro s image blob rest ws rds rs last hlegal htransferable hpending hwrites hreads hlength hframes
  have hrun := run_transferProgram htransferable rest hlegal
  rw [withPending_self hpending, transferPayloads_eq, sendAll_concat] at hrun
  have hcount := length_payloadsBeforeStop image blob
  have hshort : ∀ p ∈ payloadsBeforeStop image blob, p.length ≤ 4095 := fun p hp =>
    length_le_of_mem_transferPayloads htransferable (List.mem_append_left _ hp)
  rw [List.replicate_succ', List.append_assoc, ← hcount] at hwrites
  obtain ⟨rx, code, reply, hsent⟩ := sendAll_of_answered (n := 0) (s := newSession s) hlegal rfl rfl hshort hwrites
    hreads (hlength.trans hcount.symm) hframes
  have hstop := sendPacket_of_ok (s := sendAll (payloadsBeforeStop image blob) (newSession s))
    (payload := stopPayload) (ws := ws) (r := last) (rs := rs) (by rw [hsent]; rfl) (by decide)
    (by rw [hsent]; rfl) (by rw [hsent])
  have hnumber : BitVec.ofNat 3 (0 + (payloadsBeforeStop image blob).length) + 1#3 =
      BitVec.ofNat 3 (chunkCount image.length + 3) := by
    rw [hcount, Nat.zero_add]
    exact (BitVec.ofNat_add _ 1).symm
  refine ⟨_, hrun, rfl, ?_, ?_, ?_⟩
  all_goals rw [hstop, hsent]
  · rfl
  · change s.txlog ++ numberedPackets s.cfg.slip (payloadsBeforeStop image blob) 1 ++
      packet s.cfg.slip (_ + 1#3) stopPayload = _
    rw [numberedPackets_payloadsBeforeStop, hnumber]
    simp only [List.append_assoc]
  · rw [← hnumber]
    rfl

/-- The host begins a transfer with a new session. -/
theorem conductTransfer_transferPlan (image blob : Bytes) (record : HostRecord) {s : State}
    (hlegal : ParametersLegal s) :
    conductTransfer (transferPlan image blob) record s =
      conductTransfer (planAfterReset image blob) { record with phase := .idle } (newSession s) := by
  have hreset : isSend (encode .sessionReset) = false := by decide
  rw [transferPlan_eq]
  exact conductTransfer_next _ _ _ _ _ _ (step_sessionReset hlegal s.pending) nofun (.inl hreset)

/-- The host's last state before it is done is `finalizing`. -/
theorem getLastD_planAfterReset (image blob : Bytes) (phase : TransferPhase) :
    ((planAfterReset image blob).map Prod.fst).getLastD phase = .finalizing := by
  rw [planAfterReset, List.map_append]
  exact List.getLastD_concat

/-- Settles O59: the host carries out the plan as the sends it has, and so does the run of the program. -/
theorem unfailedTransferCompletes : Obligations.UnfailedTransferCompletes := by
  intro s image blob ws hlegal htransferable hpending hwrites
  have hstart : WritesSucceed (newSession s) ((planSends (planAfterReset image blob)).length + 0) ws := by
    rw [planSends_planAfterReset, length_transferSends]
    exact ⟨hlegal, rfl, hwrites⟩
  have hconduct := conductTransfer_append (fun _ => goesOn_of_mem_planAfterReset htransferable) []
    { HostRecord.start with phase := .idle } hstart
  rw [List.append_nil, ← conductTransfer_transferPlan image blob _ hlegal, getLastD_planAfterReset,
    planSends_planAfterReset, transferSends_map_snd] at hconduct
  have hrun := run_transferProgram htransferable [] hlegal
  have hdone : (sendAll (transferPayloads image blob) (newSession s)).pending = [] :=
    (sendAll_pending _ _).trans hpending
  rw [List.append_nil, withPending_self hdone] at hrun
  rw [planSends_planAfterReset, length_transferSends, ← length_transferPayloads image blob] at hstart
  obtain ⟨-, hopen, hrest⟩ := sendAll_of_writesSucceed (payloads := transferPayloads image blob) (n := 0) hstart
    fun _ => length_le_of_mem_transferPayloads htransferable
  exact ⟨_, hconduct, hrun, hopen, hrest⟩

end Sys2Proof.Proofs
end

section
/-! A transfer one of whose writes fails (spec/48_host_protocol.md R207, spec/43_transport.md R177). -/

namespace Sys2Proof.Proofs

open Sys2Proof.Machine Sys2Proof.Laws

/-- An item that sends a payload is its SEND_PACKET. -/
theorem eq_sendItem_of_sentPayload {h : HostItem} {payload : Bytes} (hsent : sentPayload h = some payload) :
    h = sendItem payload := by
  cases h with
  | command w data =>
    obtain ⟨rfl, rfl⟩ : w = 0x0040#16 ∧ data = payload := by simpa [sentPayload] using hsent
    exact (sendItem_eq data).symm
  | payload | wait | hardwareReset => cases hsent

/-- A plan taken apart at its `n`th send, counted from 0. -/
theorem exists_split_at_send {plan : List (TransferPhase × HostItem)} {sends : List (TransferPhase × Bytes)} {n : Nat}
    (hsends : planSends plan = sends) (hn : n < sends.length) :
    ∃ before after, plan = before ++ (sends[n].1, sendItem sends[n].2) :: after ∧ planSends before = sends.take n := by
  have hsplit : sends = sends.take n ++ sends[n] :: sends.drop (n + 1) := by
    rw [← List.drop_eq_getElem_cons hn, List.take_append_drop]
  obtain ⟨first, second, hplan, hfirst, hsecond⟩ := List.filterMap_eq_append_iff.mp (hsends.trans hsplit)
  obtain ⟨quiet, ⟨phase, h⟩, after, rfl, hquiet, hsend, -⟩ := List.filterMap_eq_cons_iff.mp hsecond
  obtain ⟨payload, hpayload, hentry⟩ := Option.map_eq_some_iff.mp hsend
  refine ⟨first ++ quiet, after, ?_, ?_⟩
  · rw [← hentry, ← eq_sendItem_of_sentPayload hpayload, List.append_assoc]
    exact hplan
  · rw [planSends, List.filterMap_append, hfirst, List.filterMap_eq_nil_iff.mpr hquiet, List.append_nil]

/-- The chunk recorded for a failure at the `n`th send: none at the Start, Init and Stop sends, else the one it sends
(R203, note 22). -/
theorem failingChunk_transferSends (image blob : Bytes) {n : Nat} (hn : n < (transferSends image blob).length) :
    failingChunk (transferSends image blob)[n].1 =
      if 2 ≤ n ∧ n < chunkCount image.length + 2 then some (n - 2) else none := by
  rcases n with _ | _ | j
  · rfl
  · rfl
  · simp only [transferSends, List.cons_append, List.nil_append, List.getElem_cons_succ]
    by_cases hj : j < chunkCount image.length
    · rw [List.getElem_append_left (by simpa using hj), List.getElem_map, List.getElem_range, if_pos (by omega)]
      rfl
    · rw [List.getElem_append_right (by simpa using hj), List.getElem_singleton, if_neg (by omega)]
      rfl

/-- A SEND_PACKET whose write fails ends the transfer. -/
theorem conductTransfer_of_ioError {phase : TransferPhase} {payload : Bytes} {s : State} {k : Nat} {ws : List WriteDraw}
    (hlegal : ParametersLegal s) (hopen : s.wfail = false) (hshort : payload.length ≤ 4095)
    (hwrites : s.link.writes = .ioError k :: ws) (after : List (TransferPhase × HostItem)) (record : HostRecord) :
    conductTransfer ((phase, sendItem payload) :: after) record s =
      .next ({ phase := .failed, failedChunk := failingChunk phase }, withPending [] (sendPacket payload s)) := by
  have hsend : isSend (sendItem payload) = true := by rw [isSend_eq_isSome, sentPayload_sendItem]; rfl
  refine conductTransfer_failed _ _ _ _ _ _ (step_issueFirst_sendItem hlegal hshort) hsend ?_
  rw [sendPacket_of_ioError hopen hshort hwrites]
  rfl

/-- The first `n` payloads of a transfer, where it has more than `n`. -/
theorem length_take_transferPayloads (image blob : Bytes) {n : Nat} (hn : n < chunkCount image.length + 3) :
    ((transferPayloads image blob).take n).length = n := by
  rw [List.length_take, length_transferPayloads]
  omega

/-- The next payload is one of the transfer's. -/
theorem getD_mem_transferPayloads (image blob : Bytes) {n : Nat} (hn : n < chunkCount image.length + 3) :
    (transferPayloads image blob).getD n [] ∈ transferPayloads image blob := by
  rw [← length_transferPayloads image blob] at hn
  rw [List.getD_eq_getElem _ _ hn]
  exact List.getElem_mem hn

/-- A transfer whose first `n` writes succeed and whose next one fails, whatever its reads return: the host stops at
that send and records its chunk. -/
theorem conductTransfer_transferPlan_of_ioError {s : State} {image blob : Bytes} {n k : Nat} {ws : List WriteDraw}
    (hlegal : ParametersLegal s) (htransferable : transferable image blob = true)
    (hn : n < chunkCount image.length + 3) (hwrites : s.link.writes = List.replicate n .ok ++ .ioError k :: ws) :
    conductTransfer (transferPlan image blob) HostRecord.start s =
      .next ({ phase := .failed
               failedChunk := if 2 ≤ n ∧ n < chunkCount image.length + 2 then some (n - 2) else none },
        withPending [] (sendPacket ((transferPayloads image blob).getD n [])
          (sendAll ((transferPayloads image blob).take n) (newSession s)))) := by
  have hpayloads := transferSends_map_snd image blob
  have hshort : ∀ p ∈ transferPayloads image blob, p.length ≤ 4095 := fun p =>
    length_le_of_mem_transferPayloads htransferable
  have hsends : n < (transferSends image blob).length := by rwa [length_transferSends]
  obtain ⟨before, after, hplan, hbefore⟩ := exists_split_at_send (planSends_planAfterReset image blob) hsends
  have hfirst : (planSends before).map Prod.snd = (transferPayloads image blob).take n := by
    rw [hbefore, List.map_take, hpayloads]
  have hfailing : (transferSends image blob)[n].2 = (transferPayloads image blob).getD n [] := by
    rw [← hpayloads, List.getD_eq_getElem _ _ (by simpa using hsends), List.getElem_map]
  have hgoesOn : ∀ e ∈ before, GoesOn e := fun e he =>
    goesOn_of_mem_planAfterReset htransferable (hplan ▸ List.mem_append_left _ he)
  have hstart : WritesSucceed (newSession s) ((planSends before).length + 0) (.ioError k :: ws) := by
    rw [← List.length_map (f := Prod.snd), hfirst, length_take_transferPayloads image blob hn]
    exact ⟨hlegal, rfl, hwrites⟩
  rw [conductTransfer_transferPlan image blob _ hlegal, hplan, conductTransfer_append hgoesOn _ _ hstart, hfirst,
    hfailing, ← failingChunk_transferSends image blob hsends]
  rw [← List.length_map (f := Prod.snd), hfirst] at hstart
  obtain ⟨hlegal', hopen, hnext⟩ := sendAll_of_writesSucceed hstart fun p hp => hshort p (List.mem_of_mem_take hp)
  exact conductTransfer_of_ioError hlegal' hopen (hshort _ (getD_mem_transferPayloads image blob hn)) hnext _ _

/-- Settles O58: the sends before the failing one are answered, and the failing one leaves the first bytes of its
packet. -/
theorem failingChunkIsRecorded : Obligations.FailingChunkIsRecorded := by
  intro s image blob n k ws rds rs hlegal htransferable hn hwrites hreads hlength hframes
  have hcount := length_take_transferPayloads image blob hn
  have hshort : ∀ p ∈ transferPayloads image blob, p.length ≤ 4095 := fun p =>
    length_le_of_mem_transferPayloads htransferable
  have hfailing := getD_mem_transferPayloads image blob hn
  obtain ⟨rx, code, reply, hsent⟩ := sendAll_of_answered (n := 0) (s := newSession s) hlegal rfl rfl
    (fun p hp => hshort p (List.mem_of_mem_take hp)) (hcount.symm ▸ hwrites) hreads (hlength.trans hcount.symm) hframes
  have hfailed := sendPacket_of_ioError (s := sendAll ((transferPayloads image blob).take n) (newSession s))
    (ws := ws) (k := k) (by rw [hsent]; rfl) (hshort _ hfailing) (by rw [hsent])
  have hnumber : BitVec.ofNat 3 (0 + ((transferPayloads image blob).take n).length) + 1#3 = BitVec.ofNat 3 (n + 1) := by
    rw [hcount, Nat.zero_add]
    exact (BitVec.ofNat_add _ 1).symm
  refine ⟨_, conductTransfer_transferPlan_of_ioError hlegal htransferable hn hwrites, ?_⟩
  rw [hfailed, hsent, ← hnumber]
  exact ⟨rfl, rfl, rfl, rfl, rfl⟩

end Sys2Proof.Proofs
end

section
/-! Exceptions (spec/60_exceptions.md): errors are completions, never traps, so every step answers a next state (R246),
and an idle block holds the one it has (R254). -/

namespace Sys2Proof.Proofs

open Sys2Proof.Machine Sys2Proof.Laws

/-! ## The idle block -/

/-- Settles O9: the fetch settles an idle block and a wait in the state as it stands, the wait taken off. -/
theorem idleBlockHoldsItsState : Obligations.IdleBlockHoldsItsState := by
  intro s hlegal
  refine ⟨fun hidle => ?_, fun ms rest hpending => ?_⟩
  · rw [step, fetch_of_nil hlegal hidle]
  · rw [← withPending_self hpending]
    exact step_wait hlegal ms rest

/-! ## Every step completes -/

/-- Every arm of the dispatch answers a next state. -/
theorem exec_completes (i : Instr) (s : State) : ∃ t, exec i s = .next t := by
  cases i <;> exact ⟨_, rfl⟩

/-- No instruction changes a parameter (00_scope.md R9). -/
theorem exec_cfg {i : Instr} {s t : State} (hexec : exec i s = .next t) : t.cfg = s.cfg := by
  rcases exec_next_cases hexec with
    ⟨payload, -, rfl⟩ | ⟨data, rfl⟩ | ⟨u, rfl⟩ | ⟨-, rfl⟩ | ⟨-, rfl⟩ | ⟨⟨code, value, out, r, -, -, -, rfl⟩, -⟩
  · exact sendPacket_cfg payload s
  · rcases txWrite_cases data s with ⟨-, h⟩ | ⟨-, ⟨l, h⟩ | ⟨k, l, -, h⟩⟩
    all_goals
      rw [h] at hexec
      cases hexec
      rfl
  · obtain ⟨l, ⟨-, f, -, h⟩ | ⟨code, -, h⟩⟩ := rxReadFrame_cases u s
    all_goals
      rw [h] at hexec
      cases hexec
      rfl
  all_goals rfl

/-- No step changes a parameter. -/
theorem step_cfg {s t : State} (hstep : step s = .next t) : t.cfg = s.cfg := by
  rcases step_next_cases hstep with ⟨-, rfl⟩ | ⟨h, rest, -, htaken⟩
  · rfl
  rcases htaken with ⟨ms, -, rfl⟩ | ⟨-, rfl⟩ | ⟨i, -, hexec⟩ | ⟨why, -, rfl⟩
  · rfl
  · rfl
  · exact exec_cfg (s := { s with pending := rest }) hexec
  · rfl

/-- The four tags of R74 written out, low byte first. -/
theorem exists_dfuPayload_eq {tag : Byte} (htag : tag ∈ [1#8, 3#8, 4#8, 5#8]) (more : Bytes) :
    ∃ o, [tag, 0#8, 0#8, 0#8] ++ more = dfuPayload o more := by
  simp only [List.mem_cons, List.not_mem_nil, or_false] at htag
  rcases htag with rfl | rfl | rfl | rfl
  · exact ⟨.init, rfl⟩
  · exact ⟨.start, rfl⟩
  · exact ⟨.data, rfl⟩
  · exact ⟨.stop, rfl⟩

/-- A payload under a defined tag is not rejected for its opcode. -/
theorem decode_dfuPayload_ne_undefined (limit : Nat) (o : DfuOp) (more : Bytes) :
    decode limit (.payload (dfuPayload o more)) ≠ .error .undefinedDfuOpcode := by
  rw [decode, decodePayload_dfuPayload]
  split <;> simp

/-- With legal parameters only a payload of an undefined DFU opcode stops the machine (note 7). -/
theorem step_completes {s : State} (hlegal : ParametersLegal s)
    (hdefined : ∀ bytes rest, s.pending = .payload bytes :: rest →
      decode (maxData s.cfg) (.payload bytes) ≠ .error .undefinedDfuOpcode) :
    ∃ t, step s = .next t := by
  rcases step_cases s with ⟨hbad, -⟩ | ⟨-, ⟨-, hstep⟩ | ⟨h, rest, hpending, htaken⟩⟩
  · rw [ParametersLegal, hbad] at hlegal
    cases hlegal
  · exact ⟨_, hstep⟩
  rcases htaken with ⟨ms, -, hstep⟩ | ⟨-, hstep⟩ | ⟨i, -, hstep⟩ | ⟨why, -, -, hstep⟩ | ⟨⟨bytes, rfl⟩, herror, -⟩
  · exact ⟨_, hstep⟩
  · exact ⟨_, hstep⟩
  · rw [hstep]
    exact exec_completes i _
  · exact ⟨_, hstep⟩
  · exact absurd herror (hdefined bytes rest hpending)

/-- Settles O6: a payload under one of the four tags decodes or is too long, so the step answers a next state. -/
theorem everyStepCompletes : Obligations.EveryStepCompletes := by
  intro s hlegal htagged
  obtain ⟨t, hstep⟩ := step_completes hlegal fun bytes rest hpending => by
    obtain ⟨tag, htag, more, rfl⟩ := htagged bytes rest hpending
    obtain ⟨o, hpayload⟩ := exists_dfuPayload_eq htag more
    rw [hpayload]
    exact decode_dfuPayload_ne_undefined _ o more
  exact ⟨t, hstep, step_pending hstep, step_cfg hstep⟩

end Sys2Proof.Proofs
end

section
/-! What a command that ends in an error leaves (spec/60_exceptions.md R242 to R244, R247). -/

namespace Sys2Proof.Proofs

open Sys2Proof.Machine Sys2Proof.Laws

/-! ## The writes of a failed session -/

/-- Settles O16: TX_WRITE and the packet-send primitive look at `WFAIL` before anything else. -/
theorem failedSessionRefusesWrites : Obligations.FailedSessionRefusesWrites := by
  intro s i hfailed hwrites
  rcases hwrites with ⟨data, rfl⟩ | ⟨payload, hsends⟩
  · exact exec_txWrite_of_wfail hfailed data
  · rw [exec_of_sendsPayload i payload hsends, sendPacket_of_wfail hfailed]
    rfl

/-! ## What a send can return -/

/-- A payload over the limit is refused before `SEQ` moves (R242 step 3). -/
theorem sendPacket_of_tooLong {s : State} {payload : Bytes} (hopen : s.wfail = false) (hlong : 4095 < payload.length) :
    sendPacket payload s = raiseError .payloadTooLong s := by
  rw [sendPacket, if_neg (by simp [hopen]), if_pos (show maxPayload < _ from hlong)]

/-- Settles O45: of the ways in which a send can end, an open session and the payload's length leave the stated ones. -/
theorem sendPacketErrors : Obligations.SendPacketErrors := by
  intro s i payload hsends
  rw [exec_of_sendsPayload i payload hsends]
  refine ⟨fun hopen hlong => ?_, fun hopen hshort => ?_⟩
  · rw [sendPacket_of_tooLong hopen hlong]
    rfl
  rcases sendPacket_cases payload s with ⟨hfailed, -⟩ | ⟨-, hlong, -⟩ | ⟨-, -, ⟨q, l, hq, h⟩ | ⟨k, l, hk, h⟩⟩
  · rw [hopen] at hfailed
    cases hfailed
  · exact absurd hlong (Nat.not_lt.mpr hshort)
  · rw [h]
    exact ⟨_, _, rfl, rfl, rfl, .inl ⟨rfl, hq, rfl⟩⟩
  · rw [h]
    exact ⟨_, _, rfl, rfl, rfl, .inr ⟨rfl, rfl, rfl, k, hk, rfl⟩⟩

/-! ## How any instruction ends -/

/-- An instruction that answered `t` with `OK`. -/
def Succeeded (t : State) : Prop :=
  ∃ value out, t.reply = some { code := .ok, value := value, out := out }

/-- An error other than `WRITE_FAILURE`, which changes `RESULT` and at most takes a draw (R243). -/
def ErredWithoutEffect (s t : State) : Prop :=
  ∃ code l, code ≠ .ok ∧ code ≠ .writeFailure ∧ t = { raiseError code s with link := l }

/-- `WRITE_FAILURE`, after `k` of the bytes `written`: those of a TX_WRITE, or the packet of a send, which keeps its
increment of `SEQ` (R243, 43_transport.md R160). -/
def WriteFailed (i : Instr) (s t : State) : Prop :=
  ∃ written q k l, k ≤ written.length ∧
    t = { raiseError .writeFailure s with
      seq := q, wfail := true, txlog := s.txlog ++ written.take k, link := l } ∧
    ((i = .txWrite written ∧ q = s.seq) ∨
      ∃ payload, sendsPayload i = some payload ∧ written = packet s.cfg.slip (s.seq + 1#3) payload ∧
        q = s.seq + 1#3)

/-- The three ways in which an instruction can end. -/
def Ended (i : Instr) (s t : State) : Prop :=
  Succeeded t ∨ ErredWithoutEffect s t ∨ WriteFailed i s t

/-- A send is refused without effect, completes, or fails on the wire (43_transport.md R170). -/
theorem ended_of_sendsPayload {i : Instr} {payload : Bytes} (hsends : sendsPayload i = some payload) (s : State) :
    Ended i s (sendPacket payload s) := by
  rcases sendPacket_cases payload s with ⟨-, h⟩ | ⟨-, -, h⟩ | ⟨-, -, ⟨q, l, -, h⟩ | ⟨k, l, hk, h⟩⟩
  all_goals rw [h]
  · exact .inr (.inl ⟨.sessionFailed, s.link, by simp, by simp, rfl⟩)
  · exact .inr (.inl ⟨.payloadTooLong, s.link, by simp, by simp, rfl⟩)
  · exact .inl ⟨_, _, rfl⟩
  · exact .inr (.inr ⟨_, _, k, l, hk, rfl, .inr ⟨payload, hsends, rfl, rfl⟩⟩)

/-- So does a TX_WRITE (43_transport.md R161). -/
theorem ended_of_txWrite {s t : State} {data : Bytes} (hexec : exec (.txWrite data) s = .next t) :
    Ended (.txWrite data) s t := by
  rcases txWrite_cases data s with ⟨-, h⟩ | ⟨-, ⟨l, h⟩ | ⟨k, l, hk, h⟩⟩
  all_goals
    rw [h] at hexec
    cases hexec
  · exact .inr (.inl ⟨.sessionFailed, s.link, by simp, by simp, rfl⟩)
  · exact .inl ⟨_, _, rfl⟩
  · exact .inr (.inr ⟨data, s.seq, k, l, hk, rfl, .inl ⟨rfl, rfl⟩⟩)

/-- A read error leaves the receiver idle, so it changes no register only where the receiver was idle (10_state.md
R27). -/
theorem ended_of_rxReadFrame {s t : State} {u : U32} (hidle : ReceiverIdle s)
    (hexec : exec (.rxReadFrame u) s = .next t) : Ended (.rxReadFrame u) s t := by
  obtain ⟨l, ⟨-, f, -, h⟩ | ⟨code, hcode, h⟩⟩ := rxReadFrame_cases u s
  all_goals
    rw [h] at hexec
    cases hexec
  · exact .inl ⟨_, _, rfl⟩
  · obtain ⟨hok, hwrite⟩ : code ≠ .ok ∧ code ≠ .writeFailure := by rcases hcode with rfl | rfl <;> simp
    refine .inr (.inl ⟨code, l, hok, hwrite, ?_⟩)
    rw [← hidle]
    rfl

/-- A command that reaches neither the link nor the receiver succeeds, or leaves `CRC` too. -/
theorem ended_of_pureCompletion {s t : State} (i : Instr) (hpure : PureCompletion s t) : Ended i s t := by
  obtain ⟨code, value, out, r, hempty, hwrite, -, rfl⟩ := hpure
  by_cases hcode : code = .ok
  · subst hcode
    exact .inl ⟨value, out, rfl⟩
  · obtain ⟨rfl, rfl, rfl⟩ := hempty hcode
    exact .inr (.inl ⟨code, s.link, hcode, hwrite, rfl⟩)

/-- From an idle receiver, every instruction ends in one of the three ways. -/
theorem ended_of_exec {i : Instr} {s t : State} (hidle : ReceiverIdle s) (hexec : exec i s = .next t) :
    Ended i s t := by
  rcases exec_next_cases hexec with
    ⟨payload, hsends, rfl⟩ | ⟨data, rfl⟩ | ⟨u, rfl⟩ | ⟨-, rfl⟩ | ⟨-, rfl⟩ | ⟨hpure, -⟩
  · exact ended_of_sendsPayload hsends s
  · exact ended_of_txWrite hexec
  · exact ended_of_rxReadFrame hidle hexec
  · exact .inl ⟨_, _, rfl⟩
  · exact .inl ⟨_, _, rfl⟩
  · exact ended_of_pureCompletion i hpure

/-- Settles O17: the returned code tells which of the three endings it was. -/
theorem errorsAreCompletedPrecisely : Obligations.ErrorsAreCompletedPrecisely := by
  intro s t i r hidle hexec hreply
  rcases ended_of_exec hidle hexec with
    ⟨value, out, hok⟩ | ⟨code, l, -, hcode, rfl⟩ | ⟨written, q, k, l, hk, rfl, hwritten⟩
  · rw [hok] at hreply
    cases hreply
    exact ⟨fun herror => absurd rfl herror, fun hwrite => by cases hwrite⟩
  · cases hreply
    exact ⟨fun _ _ => ⟨rfl, rfl, rfl, rfl, rfl, rfl, rfl, rfl, rfl, rfl⟩, fun hwrite => absurd hwrite hcode⟩
  · cases hreply
    refine ⟨fun _ hother => absurd rfl hother, fun _ => ⟨rfl, rfl, rfl, rfl, rfl, rfl, rfl, rfl, ?_⟩⟩
    rcases hwritten with ⟨rfl, rfl⟩ | ⟨payload, hsends, rfl, rfl⟩
    · exact .inl ⟨written, k, rfl, hk, rfl, rfl⟩
    · exact .inr ⟨payload, k, hsends, hk, rfl, rfl⟩

end Sys2Proof.Proofs
end

section
/-! What reset leaves, and that the block's invariant begins there (spec/70_reset_and_hazards.md R280). -/

namespace Sys2Proof.Proofs

open Sys2Proof.Machine Sys2Proof.Laws

/-! ## The registers at reset -/

/-- The registers that power-on, hardware reset and SESSION_RESET set alike, at the values R280 gives them. -/
structure RegistersReset (t : State) : Prop where
  crc : t.crc = ckInit
  seq : t.seq = 0#3
  wfail : t.wfail = false
  result : t.result = .ok
  rx : t.rx = Rx.idle

/-- Power-on sets them. -/
theorem reset_registersReset : RegistersReset State.reset := ⟨rfl, rfl, rfl, rfl, rfl⟩

/-- Hardware reset sets them. -/
theorem hardwareReset_registersReset (s : State) : RegistersReset (hardwareReset s) where
  crc := hardwareReset_crc s
  seq := hardwareReset_seq s
  wfail := hardwareReset_wfail s
  result := hardwareReset_result s
  rx := hardwareReset_rx s

/-- SESSION_RESET sets them: `RESULT` is the code it completes with (43_transport.md R181). -/
theorem newSession_registersReset (s : State) : RegistersReset (newSession s) where
  crc := resetRegisters_crc s
  seq := resetRegisters_seq s
  wfail := resetRegisters_wfail s
  result := rfl
  rx := resetRegisters_rx s

/-- The registers do not include what the host does next. -/
theorem RegistersReset.withPending {t : State} (ht : RegistersReset t) (rest : List HostItem) :
    RegistersReset (withPending rest t) :=
  ⟨ht.crc, ht.seq, ht.wfail, ht.result, ht.rx⟩

/-- The STATUS view of these registers (10_state.md R29): only `CRC`, in the upper half, has bits set. -/
theorem RegistersReset.statusWord_eq {t : State} (ht : RegistersReset t) : statusWord t = 0xFFFF0000#32 := by
  rw [statusWord, ht.crc, ht.seq, ht.wfail, ht.result]
  decide

/-! ## The steps that reset -/

/-- The step that takes a hardware reset (R285). -/
theorem step_hardwareReset {s : State} (hlegal : ParametersLegal s) (rest : List HostItem) :
    step (withPending (.hardwareReset :: rest) s) = .next (withPending rest (hardwareReset s)) := by
  rw [step, fetch_of_cons (s := withPending (.hardwareReset :: rest) s) hlegal rfl]
  rfl

/-- Taking either kind of reset sets the registers and keeps the wire history (note 13). -/
theorem step_of_reset_pending {s : State} {rest : List HostItem} (hlegal : ParametersLegal s)
    (hpending : s.pending = .hardwareReset :: rest ∨ s.pending = .command 0x0051#16 [] :: rest) :
    ∃ t, step s = .next (withPending rest t) ∧ RegistersReset t ∧ t.txlog = s.txlog := by
  rcases hpending with hhardware | hsession
  · refine ⟨hardwareReset s, ?_, hardwareReset_registersReset s, hardwareReset_txlog s⟩
    rw [← step_hardwareReset hlegal rest, withPending_self hhardware]
  · refine ⟨newSession s, ?_, newSession_registersReset s, resetRegisters_txlog s⟩
    rw [← step_sessionReset hlegal rest, encode_sessionReset, withPending_self hsession]

/-- Settles O10: all three resets set the registers, and those fix the STATUS view. -/
theorem resetValues : Obligations.ResetValues := by
  have hpowerOn := reset_registersReset
  refine ⟨⟨hpowerOn.crc, hpowerOn.seq, hpowerOn.wfail, hpowerOn.result, hpowerOn.rx, rfl, hpowerOn.statusWord_eq⟩, ?_⟩
  intro s rest hlegal hpending
  obtain ⟨t, hstep, ht, htxlog⟩ := step_of_reset_pending hlegal hpending
  have hrest := ht.withPending rest
  exact ⟨withPending rest t, hstep, hrest.crc, hrest.seq, hrest.wfail, hrest.result, hrest.rx, htxlog,
    hrest.statusWord_eq, rfl⟩

/-! ## The invariant at reset -/

/-- The default SLIP bytes keep to 00_scope.md R10 (note 2). -/
theorem slipLegal_default : slipLegal SlipParams.default = true := by decide

/-- Where the registers are reset and nothing has been returned, legal parameters are all the invariant asks for. -/
theorem RegistersReset.sound {t : State} (ht : RegistersReset t) (hreply : t.reply = none)
    (hlegal : ParametersLegal t) : Sound t where
  replyCanonical := by
    intro r hr
    rw [hreply] at hr
    cases hr
  receiverIdle := ht.rx
  failureHeld := by simp [FailureHeld, ht.result]
  parametersLegal := hlegal

/-- Settles O12: at power-on nothing has been returned, and the SLIP bytes are the defaults. -/
theorem resetIsSound : Obligations.ResetIsSound := reset_registersReset.sound rfl slipLegal_default

end Sys2Proof.Proofs
end
